-- ==== Sys2Proof/Word.lean ====
section
/-! DEFINITION. The word and byte types of the block (00_scope.md R7). -/

namespace Sys2Proof

/-- A 64-bit register, accumulator, block value or address (R7). -/
abbrev Word := BitVec 64

/-- One byte of buffer memory (R7, R9). -/
abbrev Byte := BitVec 8

end Sys2Proof
end

