-- ==== Sys2Proof/Syntax.lean ====
section
/-! DEFINITION. The commands of spec/opcode_table.json (30_encoding.md R82): one constructor per row. -/

namespace Sys2Proof

/-- A legal command. No command has a field: its operands are SEED, ADDR and LEN at acceptance (R84). -/
inductive Instr where
  /-- HASH64, command word 1 (41_loop_engine.md R114). -/
  | hash64
  /-- HASH32, command word 2 (42_fold_unit.md R143). -/
  | hash32
  /-- CLRSTAT, command word 3 (43_control.md R150). -/
  | clrstat
  deriving DecidableEq, Repr

/-- The OP field of a command's word (R82). -/
def Instr.op : Instr → BitVec 8
  | .hash64 => 0x01
  | .hash32 => 0x02
  | .clrstat => 0x03

end Sys2Proof
end

