-- ==== Sys2Proof/WellFormed.lean ====
section
/-! DEFINITION. Well-formed command words and commands (30_encoding.md R80, R82, R84). -/

namespace Sys2Proof

/-- OP, bits [7:0] of a command word (R80). -/
def CmdWord.op (w : Word) : BitVec 8 := w.extractLsb' 0 8

/-- RSVD, bits [63:8] of a command word (R80). -/
def CmdWord.rsvd (w : Word) : BitVec 56 := w.extractLsb' 8 56

/-- "reserved; must be 0" (R80). -/
def CmdWord.rsvdZero (w : Word) : Bool := CmdWord.rsvd w == 0

/-- OP is one that R82 lists. -/
def CmdWord.opListed (w : Word) : Bool :=
  CmdWord.op w == 0x01 || CmdWord.op w == 0x02 || CmdWord.op w == 0x03

/-- A word of format CMDW that R82 lists. -/
def CmdWord.wf (w : Word) : Bool := CmdWord.rsvdZero w && CmdWord.opListed w

/-- A command has no operand field that could be out of range (R84). -/
def Instr.wf : Instr → Bool
  | .hash64 => true
  | .hash32 => true
  | .clrstat => true

end Sys2Proof
end

