-- ==== Sys2Proof/Decode.lean ====
section
/-! DEFINITION. The command decoder, total on 64-bit words, and the encoder (30_encoding.md R80–R85). -/

namespace Sys2Proof

/-- Why a word is illegal: the classes of R83 and R85. -/
inductive DecodeError where
  /-- RSVD has a bit set (R83). -/
  | rsvdSet
  /-- OP = 0x00 with RSVD = 0: deliberately illegal (R85). -/
  | opZero
  /-- OP = 0x04 to 0x7F with RSVD = 0: reserved for later revisions (R85). -/
  | opReserved
  /-- OP = 0x80 to 0xFF with RSVD = 0: the custom space (R85). -/
  | opCustom
  deriving DecidableEq, Repr

/-- The class of a word that R82 does not list (R85). -/
def classifyIllegal (w : Word) : DecodeError :=
  if CmdWord.rsvdZero w = false then .rsvdSet
  else if CmdWord.op w = 0 then .opZero
  else if CmdWord.op w < 0x80 then .opReserved
  else .opCustom

/-- R83: the whole 64-bit word is matched exactly against R82's values. -/
def decode (w : Word) : Except DecodeError Instr :=
  if w = 0x0000000000000001 then .ok .hash64
  else if w = 0x0000000000000002 then .ok .hash32
  else if w = 0x0000000000000003 then .ok .clrstat
  else .error (classifyIllegal w)

/-- R80: RSVD = 0 above OP. -/
def encode (i : Instr) : Word := (0 : BitVec 56) ++ i.op

/-- The opcode table's numbering of a word's bits is R10's: a command is one 64-bit value, and the bits above the
table's `nbits` are 0. -/
def decodeTableWord (nbits w : Nat) : Option Instr :=
  (decode (BitVec.ofNat 64 (w % 2 ^ nbits))).toOption

end Sys2Proof
end

