-- ==== Sys2Proof/Config.lean ====
section
/-! DEFINITION. What no rule fixes: whose step comes next (60_exceptions.md R176, 93 U12). The constants of R8 are not
configuration; they stand in Machine/Operands.lean. -/

namespace Sys2Proof

/-- Whose step a step is. The first three are the agents of 00_scope.md R6, the last is the `rst` input
(70_reset_and_hazards.md R190: a step of its own, at any time). -/
inductive Turn where
  | host
  | engine
  | memory
  | reset
  deriving DecidableEq, Repr, Inhabited

/-- FREE VALUE (log entry 4): the turn taken at the n-th step whose turn the state does not name. It has no body: every
order of the agents' steps is a possible run (R176, U12). -/
opaque Config.freeTurn : Nat → Turn

end Sys2Proof
end

