-- ==== Sys2Proof/Machine/State.lean ====
section
/-! DEFINITION. The state of the block, of the memory it reads and of the host that drives it, as plain data, the reasons
a step can stop, and the state after reset (10_state.md, 70_reset_and_hazards.md R190). -/

namespace Sys2Proof.Machine

/-- OPK, the operation kind (R22). -/
inductive OpKind where
  | idle
  | h64
  | h32
  deriving DecidableEq, Repr

/-- The block's own state: the internal state of R22–R25, the stored status elements of R26, CTRL's two bits (R34) and the
host-visible registers with storage (R35–R40). STATUS is assembled from these and has no storage (R20). -/
structure Block where
  /-- OPK (R22). -/
  opk : OpKind
  /-- ACC, the accumulator (R23). -/
  acc : Word
  /-- PTR, the address of the next block (R24). -/
  ptr : Word
  /-- REM, the bytes not yet read (R25). -/
  rem : Word
  /-- STATUS.DONE (R26). -/
  done : Bool
  /-- STATUS.ERR (R26). -/
  err : Bool
  /-- STATUS.OVR (R26). -/
  ovr : Bool
  /-- STATUS.ERRCODE (R26, R170). -/
  errcode : BitVec 4
  /-- STATUS.LASTOP (R26). -/
  lastop : BitVec 8
  /-- CTRL.DONE_IE (R34). -/
  doneIe : Bool
  /-- CTRL.ERR_IE (R34). -/
  errIe : Bool
  /-- SEED (R35). -/
  seed : Word
  /-- ADDR (R36). -/
  addr : Word
  /-- LEN (R37). -/
  len : Word
  /-- RESULT64 (R38). -/
  result64 : Word
  /-- RESULT32, a 64-bit register whose bits [63:32] read 0 (R39, D30). -/
  result32 : Word
  /-- FAULT_ADDR (R40). -/
  faultAddr : Word
  deriving DecidableEq, Repr

/-- R190: every element at its reset value. -/
def Block.reset : Block :=
  { opk := .idle, acc := 0, ptr := 0, rem := 0
    done := false, err := false, ovr := false, errcode := 0, lastop := 0
    doneIe := false, errIe := false
    seed := 0, addr := 0, len := 0, result64 := 0, result32 := 0, faultAddr := 0 }

/-- The operand values latched at the last acceptance that started an operation: ADDR_acc and LEN_acc of 20_memory.md R73,
and the seed of 10_state.md R43. The engine does not read them. -/
structure Latch where
  seed : Word
  addr : Word
  len : Word
  deriving DecidableEq, Repr

/-- DESIGN CHOICE (log entry 6): no operation has been accepted. -/
def Latch.reset : Latch := { seed := 0, addr := 0, len := 0 }

/-- The addresses lo to hi, both included (the `.readable lo..hi` of 30_encoding.md R90). -/
structure Region where
  lo : Nat
  hi : Nat
  deriving DecidableEq, Repr

/-- The platform's parameters (00_scope.md R9). No step changes them. -/
structure Platform where
  /-- The upper 57 bits of REG_BASE, which is 128-byte aligned (R9, D3). -/
  windowPage : BitVec 57
  /-- The addresses where `readable` holds (R9, D14). -/
  readable : List Region
  /-- The buffer addresses at which the block's own window stands; none where the platform keeps it out of the buffer's space
  (20_memory.md R60, R66, R67; log entry 15). -/
  ownWindow : List Region
  /-- The other regions with read side effects (R66, D28). -/
  sideEffect : List Region
  /-- Whether the memory answers the engine's requests (R125, D25). -/
  memAnswers : Bool
  deriving DecidableEq, Repr

/-- DESIGN CHOICE (log entry 2): the spec leaves the platform open. -/
def Platform.reset : Platform :=
  { windowPage := 0, readable := [], ownWindow := [], sideEffect := [], memAnswers := true }

/-- Buffer memory: the bytes that differ from what an unlisted address reads as, addresses strictly rising. -/
abbrev Memory := List Host.Cell

/-- What the host does next (00_scope.md R6, 30_encoding.md R86, R90–R92). -/
inductive HostOp where
  /-- A register read of `width` bits at byte offset `off` of the window (R151). -/
  | read (width off : Nat)
  /-- A register write of `width` bits at byte offset `off` of the window (R152). -/
  | write (width off : Nat) (w : Word)
  /-- A store of one byte to buffer memory, outside the block (R6). -/
  | store (a : Word) (b : Byte)
  /-- The host's own fence: every store it has made becomes visible to the block's read port (R70, R198). -/
  | fence
  /-- `wait`: `rd STATUS` until BUSY reads 0 (R92). -/
  | wait
  deriving DecidableEq, Repr

/-- The whole machine. -/
structure State where
  /-- The block (R20). -/
  blk : Block
  /-- The latched operand values (R43, R73). -/
  latch : Latch
  /-- The platform's parameters (R9). -/
  plat : Platform
  /-- Buffer memory as the block's read port sees it (R9, R60). -/
  mem : Memory
  /-- Host stores the read port cannot see yet, oldest first (R69 item 4, R198). -/
  stores : List Host.Cell
  /-- What the host does next, in port order (R69 item 1). -/
  host : List HostOp
  /-- The values the host has read, in request order (R29, R90). -/
  reads : List Word
  /-- The MODEL's own: whose step is next, and after it (R176, U12). -/
  turns : List Turn
  /-- The MODEL's own: how many free turns were taken (log entry 4). -/
  tick : Nat
  deriving DecidableEq, Repr

/-- The machine right after reset (R190, R192): the block's elements as the spec gives them, nothing listed in memory, and
a host that has asked for nothing yet. -/
def State.reset : State :=
  { blk := Block.reset, latch := Latch.reset, plat := Platform.reset
    mem := [], stores := [], host := [], reads := [], turns := [], tick := 0 }

/-- What stops the machine for good: nothing. Every error of the spec is a status update after which the block goes on
(60_exceptions.md R171, R177), and a memory that never answers leaves BUSY = 1 until reset (R125), so the type has no
constructor (log entry 7); this is safe. -/
inductive Fault where
  deriving DecidableEq, Repr

/-- The runs to which the spec gives no meaning ("a model refuses such a run", 93_implementation_defined.md). -/
inductive Refusal where
  /-- Raised by exec for a command without a meaning; no arm raises it. Safe. -/
  | notModelled (mnemonic : String)
  /-- Raised by a register access that is not 64 bits wide, not at a multiple of 8, or outside the window, and by a byte store
  into the window (R151, D4, U6). Safe: nothing is claimed of such a run. -/
  | notAdmitted
  /-- Raised when a byte of the latched range is written while BUSY = 1 (R73, R196, D22, U4). Safe. -/
  | bufferWritten
  /-- Raised when the engine's next block has a byte with read side effects, the block's own window included, readable or not
  (R66, R196, D28, U5; log entry 10). Safe. -/
  | deviceRead
  /-- Raised when an operation is accepted while a store into its buffer is not yet visible to the read port (R69 item 4, R198,
  U17). Safe. -/
  | bufferNotVisible
  deriving DecidableEq, Repr

/-- What a step or a meaning answers. -/
abbrev Result := Host.Outcome State Fault Refusal

end Sys2Proof.Machine
end

