-- ==== Sys2Proof/Machine/Flags.lean ====
section
/-! DEFINITION. The status elements, STATUS and CTRL as words, error codes and the interrupt line (10_state.md R26, R33, R34;
60_exceptions.md R170, R171, R175; 43_control.md R153, R156). -/

namespace Sys2Proof.Machine

/-- BUSY = 1 exactly when OPK ≠ IDLE (R26). -/
def Block.busy (b : Block) : Bool := b.opk != .idle

/-- BUSY of the machine's block. -/
def State.busy (s : State) : Bool := s.blk.busy

/-- STATUS as it reads (R33). -/
def Block.statusWord (b : Block) : Word :=
  (b.lastop ++ (0 : BitVec 4) ++ b.errcode ++ (0 : BitVec 4) ++ BitVec.ofBool b.ovr ++ BitVec.ofBool b.err ++
    BitVec.ofBool b.done ++ BitVec.ofBool b.busy).setWidth 64

/-- CTRL as it reads: zext64 of ERR_IE above DONE_IE (R34, R151). -/
def Block.ctrlWord (b : Block) : Word := (BitVec.ofBool b.errIe ++ BitVec.ofBool b.doneIe).setWidth 64

/-- The interrupt output, a function of current state (R175). -/
def Block.irq (b : Block) : Bool := (b.done && b.doneIe) || ((b.err || b.ovr) && b.errIe)

/-- The error codes this revision produces (R170). -/
inductive ErrCode where
  | illegalCmd
  | addrRange
  | busError
  deriving DecidableEq, Repr

/-- ERRCODE's value (R170). -/
def ErrCode.bits : ErrCode → BitVec 4
  | .illegalCmd => 1
  | .addrRange => 2
  | .busError => 3

/-- What acceptance does to status, and so the "return" from an error (R153, R178). -/
def Block.accept (op : BitVec 8) (b : Block) : Block :=
  { b with done := false, err := false, ovr := false, errcode := 0, lastop := op }

/-- The one effect of a CMD write while BUSY = 1 (R156). -/
def Block.overrun (b : Block) : Block := { b with ovr := true }

/-- `raise ERR(code, info)`: the status update that ends an operation with an error (R171). -/
def Block.raise (c : ErrCode) (b : Block) : Block :=
  { b with
    err := true
    errcode := c.bits
    faultAddr := if c = .busError then b.ptr else b.faultAddr
    opk := .idle }

end Sys2Proof.Machine
end

