-- ==== Sys2Proof/Machine/Operands.lean ====
section
/-! DEFINITION. Operand forms: the register window's offsets, buffer bytes and block values, and address ranges
(10_state.md R30, 20_memory.md R60–R64, 41_loop_engine.md R115, 43_control.md R151). -/

namespace Sys2Proof.Machine

/-- What the offsets of the register window name (R30). -/
inductive Reg where
  | id
  | cmd
  | status
  | ctrl
  | seed
  | addr
  | len
  | result64
  | result32
  | faultAddr
  | reserved
  deriving DecidableEq, Repr

/-- The register at a byte offset of the window (R30, R41). -/
def Reg.atOffset (off : Nat) : Reg :=
  if off = 0x00 then .id
  else if off = 0x08 then .cmd
  else if off = 0x10 then .status
  else if off = 0x18 then .ctrl
  else if off = 0x20 then .seed
  else if off = 0x28 then .addr
  else if off = 0x30 then .len
  else if off = 0x38 then .result64
  else if off = 0x40 then .result32
  else if off = 0x48 then .faultAddr
  else .reserved

/-- offset(REG), the byte offset of a register (R30, R90). The reserved offsets have no name in R90; the first stands for them. -/
def Reg.offset : Reg → Nat
  | .id => 0x00
  | .cmd => 0x08
  | .status => 0x10
  | .ctrl => 0x18
  | .seed => 0x20
  | .addr => 0x28
  | .len => 0x30
  | .result64 => 0x38
  | .result32 => 0x40
  | .faultAddr => 0x48
  | .reserved => 0x50

/-- R151: 64 bits wide, a multiple of 8, inside the window. -/
def admitted (width off : Nat) : Bool := width == 64 && off % 8 == 0 && decide (off < 0x80)

/-- REG_BASE (R9). -/
def Platform.regBase (p : Platform) : Word := p.windowPage ++ (0 : BitVec 7)

/-- The bus address of a window offset (R86). -/
def Platform.busAddress (p : Platform) (off : Nat) : Word := p.regBase + BitVec.ofNat 64 off

/-- The platform's decode of a bus address: the offset in the window, `none` outside it (R29: address bits above bit 6
never reach the block). -/
def Platform.windowOffset (p : Platform) (a : Word) : Option Nat :=
  if a.extractLsb' 7 57 = p.windowPage then some (a.extractLsb' 0 7).toNat else none

/-- Whether an address lies in one of the regions. -/
def Region.anyHolds (rs : List Region) (a : Nat) : Bool := rs.any fun r => decide (r.lo ≤ a) && decide (a ≤ r.hi)

/-- The byte at buffer address `a` lies in the block's own window. The block reserves no range of buffer memory (R67) and the window
is a space of its own (R60), so this is as the platform places it and does not follow from REG_BASE (log entry 15). -/
def Platform.inWindow (p : Platform) (a : Nat) : Bool := Region.anyHolds p.ownWindow a

/-- The predicate `readable` (R9). -/
def Platform.readableAt (p : Platform) (a : Nat) : Bool := Region.anyHolds p.readable a

/-- Whether reading the byte has side effects: the block's own window, or another region the platform names (R66). -/
def Platform.deviceAt (p : Platform) (a : Nat) : Bool := p.inWindow a || Region.anyHolds p.sideEffect a

/-- What a byte of memory that nothing lists reads as (DESIGN CHOICE, log entry 1). -/
def unlistedByte : Byte := 0

/-- The byte at an address of buffer memory. -/
def Memory.read : Memory → Nat → Byte
  | [], _ => unlistedByte
  | (k, b) :: m, a => if k = a then b else Memory.read m a

/-- Byte i of the n bytes at a .. a+n-1, in the 64-bit address space (R12, R60; log entry 9 for the top). -/
def byteAddress (a : Word) (i : Nat) : Nat := (a + BitVec.ofNat 64 i).toNat

/-- LE64 of at most 8 bytes: the byte at offset i goes to bits [8i+7:8i] (R61, R118). -/
def le64 : List Byte → Word
  | [] => 0
  | b :: bs => b.setWidth 64 + (le64 bs <<< 8)

/-- The n bytes at address a, ascending. -/
def State.bytesAt (s : State) (a : Word) (n : Nat) : List Byte :=
  (List.range n).map fun i => s.mem.read (byteAddress a i)

/-- `readable` holds at every one of the n bytes at a (R62). -/
def State.blockReadable (s : State) (a : Word) (n : Nat) : Bool :=
  (List.range n).all fun i => s.plat.readableAt (byteAddress a i)

/-- Some byte of the n bytes at a lies in a region with read side effects or in the block's own window, readable or not
(R66, 70_reset_and_hazards.md R196, U5). -/
def State.blockDevice (s : State) (a : Word) (n : Nat) : Bool :=
  (List.range n).any fun i => s.plat.deviceAt (byteAddress a i)

/-- What `MemRead` returns (R62). -/
inductive ReadResult where
  /-- The block value. -/
  | value (v : Word)
  /-- A bus error: some byte is not readable. -/
  | busError
  deriving DecidableEq, Repr

/-- `MemRead(a, n)`, the engine's only memory primitive (R62). -/
def State.memRead (s : State) (a : Word) (n : Nat) : ReadResult :=
  if s.blockReadable a n then .value (le64 (s.bytesAt a n)) else .busError

/-- n of R120: the bytes of the next block. -/
def Block.blockSize (b : Block) : Nat := min b.rem.toNat 8

/-- The memory read port's request in this state: m_req_addr = PTR and m_req_nbytes, where m_req_valid is 1 (R29). -/
def Block.memRequest (b : Block) : Option (Word × Nat) :=
  if b.busy && b.blockSize != 0 then some (b.ptr, b.blockSize) else none

/-- R115: LEN ≠ 0 and ADDR + LEN > 2^64, with exact addition. -/
def rangeWraps (a l : Word) : Bool := l != 0 && decide (2 ^ 64 < a.toNat + l.toNat)

/-- The address x is one of a + i, 0 ≤ i < l, with exact addition (R60, R73). -/
def inRange (a l : Word) (x : Nat) : Bool := decide (a.toNat ≤ x) && decide (x < a.toNat + l.toNat)

/-- The address x is in the latched range of an operation in progress (R73). -/
def State.borrowed (s : State) (x : Nat) : Bool := s.busy && inRange s.latch.addr s.latch.len x

/-- Some store into the l bytes at a is not yet visible to the read port (R198). -/
def State.storePending (s : State) (a l : Word) : Bool := s.stores.any fun c => inRange a l c.1

end Sys2Proof.Machine
end

