-- ==== Sys2Proof/Machine/Ops.lean ====
section
/-! DEFINITION. The named operations on the state: memory, register reads and writes, taking an error (the block's only
"exception", 60_exceptions.md R171, R177) and the return from it (R178), reset, and the named updates of State. -/

namespace Sys2Proof.Machine

/-- A write of one byte that keeps the memory's canonical form. -/
def Memory.write : Memory → Nat → Byte → Memory
  | [], a, b => if b = unlistedByte then [] else [(a, b)]
  | (k, c) :: m, a, b =>
    if a < k then (if b = unlistedByte then (k, c) :: m else (a, b) :: (k, c) :: m)
    else if a = k then (if b = unlistedByte then m else (a, b) :: m)
    else (k, c) :: Memory.write m a b

/-- The canonical form: addresses of the 64-bit space, strictly rising, no entry equal to what an unlisted address reads as. -/
def Memory.wf : Memory → Bool
  | [] => true
  | (k, b) :: m => decide (k < 2 ^ 64) && b != unlistedByte && m.all (fun c => decide (k < c.1)) && Memory.wf m

/-- Several byte writes, the oldest first. -/
def Memory.writeAll (m : Memory) : List Host.Cell → Memory
  | [] => m
  | c :: cs => Memory.writeAll (m.write c.1 c.2) cs

def State.setBlk (s : State) (b : Block) : State := { s with blk := b }

def State.setLatch (s : State) (l : Latch) : State := { s with latch := l }

def State.setMem (s : State) (m : Memory) : State := { s with mem := m }

def State.setStores (s : State) (cs : List Host.Cell) : State := { s with stores := cs }

def State.setHost (s : State) (ops : List HostOp) : State := { s with host := ops }

/-- A read's one response (R29), kept in request order. -/
def State.pushRead (s : State) (v : Word) : State := { s with reads := s.reads ++ [v] }

/-- TAKING AN ERROR, for every error code (R171): a status update, never a diversion of control (R177). -/
def State.raise (s : State) (c : ErrCode) : State := s.setBlk (s.blk.raise c)

/-- Acceptance's status update (R153), which is also how a host returns from an error (R178). -/
def State.accept (s : State) (op : BitVec 8) : State := s.setBlk (s.blk.accept op)

/-- A CMD write that is not accepted (R156). -/
def State.overrun (s : State) : State := s.setBlk s.blk.overrun

/-- Every CMD write: the BUSY test comes first (R176), then the status of R153, then the command's own effect. -/
def State.command (s : State) (op : BitVec 8) (effect : State → Result) : Result :=
  if s.busy then .next s.overrun else effect (s.accept op)

/-- The reset step (R190, R191): every element of the block at its reset value; the platform, the memory and the host are
outside the block. -/
def State.doReset (s : State) : State := (s.setBlk Block.reset).setLatch Latch.reset

/-- ID's constant (R31). -/
def idWord : Word := 0x4648363400010000

/-- The value of a register read (R151). -/
def Block.regValue (b : Block) : Reg → Word
  | .id => idWord
  | .cmd => 0
  | .status => b.statusWord
  | .ctrl => b.ctrlWord
  | .seed => b.seed
  | .addr => b.addr
  | .len => b.len
  | .result64 => b.result64
  | .result32 => b.result32
  | .faultAddr => b.faultAddr
  | .reserved => 0

/-- CTRL ← w[1:0] (R34, R152). -/
def Block.writeCtrl (b : Block) (w : Word) : Block := { b with doneIe := w.getLsbD 0, errIe := w.getLsbD 1 }

/-- SEED ← w (R152). -/
def Block.writeSeed (b : Block) (w : Word) : Block := { b with seed := w }

/-- ADDR ← w (R152). -/
def Block.writeAddr (b : Block) (w : Word) : Block := { b with addr := w }

/-- LEN ← w (R152). -/
def Block.writeLen (b : Block) (w : Word) : Block := { b with len := w }

/-- A register write's effect on the block, CMD's command apart (R152): read-only and reserved offsets ignore it. -/
def Block.writeReg (b : Block) (w : Word) : Reg → Block
  | .id => b
  | .cmd => b
  | .status => b
  | .ctrl => b.writeCtrl w
  | .seed => b.writeSeed w
  | .addr => b.writeAddr w
  | .len => b.writeLen w
  | .result64 => b
  | .result32 => b
  | .faultAddr => b
  | .reserved => b

/-- Whose step is next: the state's first turn, else the free value (R176, U12). -/
def State.turn (s : State) : Turn :=
  match s.turns with
  | t :: _ => t
  | [] => Config.freeTurn s.tick

/-- The state after a turn is taken up: its entry is gone, or one more free turn is counted. -/
def State.takeTurn (s : State) : State :=
  match s.turns with
  | _ :: ts => { s with turns := ts }
  | [] => { s with tick := s.tick + 1 }

/-- The memory agent's step: the oldest store becomes visible (R198); into a borrowed byte it has no meaning (R73). -/
def memoryStep (s : State) : Result :=
  match s.stores with
  | [] => .next s
  | c :: cs =>
    if s.borrowed c.1 then .refused .bufferWritten
    else .next ((s.setMem (s.mem.write c.1 c.2)).setStores cs)

/-- The host's fence: every store becomes visible, in order (R70, R198); none into a borrowed byte (R73). -/
def fenceStep (s : State) : Result :=
  if s.stores.any (fun c => s.borrowed c.1) then .refused .bufferWritten
  else .next ((s.setMem (s.mem.writeAll s.stores)).setStores [])

/-- The host's store of one byte (R6). A byte of the register window, where the platform has it in the
buffer's space, is not admitted (R151, log entries 11 and 15); a borrowed byte may not
be written (R73). -/
def storeStep (a : Word) (b : Byte) (s : State) : Result :=
  if s.plat.inWindow a.toNat then .refused .notAdmitted
  else if s.borrowed a.toNat then .refused .bufferWritten
  else .next (s.setStores (s.stores ++ [(a.toNat, b)]))

end Sys2Proof.Machine
end

