-- ==== Sys2Proof/Machine/Control.lean ====
section
/-! DEFINITION. CLRSTAT and the illegal command (43_control.md R150, R155). -/

namespace Sys2Proof.Machine

/-- CLRSTAT written to CMD: the status clearing of acceptance and nothing else (R150, R153, R156). -/
def execClrstat (s : State) : Result := s.command 0x03 fun t => .next t

/-- A word that R83 does not decode, written to CMD (R155, R174, R156). -/
def execIllegal (w : Word) (s : State) : Result :=
  s.command (w.extractLsb' 0 8) fun t => .next (t.raise .illegalCmd)

end Sys2Proof.Machine
end

