-- ==== Sys2Proof/Machine/Mixer.lean ====
section
/-! DEFINITION. hash64_mixer: the mix primitive (40_mixer.md R100–R103). The constant stands
left of each product: a product modulo 2^64 is the same either way, and a definitional unfolding of it then stops at the operand
instead of counting down from the constant. -/

namespace Sys2Proof.Machine

/-- C_MIX, the fixed odd constant of the mixer (R8, R101). -/
def cMix : Word := 0x2127599bf4325c37

/-- The mix primitive: three steps in this order (R100, R103). -/
def mix (x : Word) : Word :=
  let t1 := x ^^^ (x >>> 23)
  let t2 := cMix * t1
  t2 ^^^ (t2 >>> 47)

end Sys2Proof.Machine
end

