-- ==== Sys2Proof/Machine/FoldUnit.lean ====
section
/-! DEFINITION. hash32_fold_unit: the 64-to-32-bit fold (42_fold_unit.md R140). -/

namespace Sys2Proof.Machine

/-- fold32(h): the low half of h - (h >> 32) (R140). -/
def fold32 (h : Word) : BitVec 32 := (h - (h >>> 32)).extractLsb' 0 32

end Sys2Proof.Machine
end

