-- ==== Sys2Proof/Machine/LoopEngine.lean ====
section
/-! DEFINITION. hash64_loop_engine: the algorithm as a pure function, starting an operation, and the engine's step
(41_loop_engine.md R110–R127), with the HASH64 and HASH32 commands (R114, 42_fold_unit.md R143). -/

namespace Sys2Proof.Machine

/-- M, the fixed odd round constant (R8, R111). -/
def roundM : Word := 0x880355f21e6d1965

/-- SEED ^ (LEN * M) (R112); the constant stands left, as in the mixer. -/
def initAcc (seed len : Word) : Word := seed ^^^ (roundM * len)

/-- combine(h, v) = (h ^ mix(v)) * M (R113); the constant stands left, as in the mixer. -/
def combine (h v : Word) : Word := roundM * (h ^^^ mix v)

/-- h after the full blocks 0 .. n-1 of a byte sequence (R116). -/
def absorbBlocks (bs : List Byte) (h : Word) : Nat → Word
  | 0 => h
  | n + 1 => combine (absorbBlocks bs h n) (le64 ((bs.drop (8 * n)).take 8))

/-- The tail: nothing where the length is a multiple of 8, else one more combine (R117). -/
def absorbTail (bs : List Byte) (h : Word) : Word :=
  if bs.length % 8 = 0 then h else combine h (le64 (bs.drop (8 * (bs.length / 8))))

/-- The pure function hash64(b, s) (R118). -/
def pureHash64 (bs : List Byte) (seed : Word) : Word :=
  mix (absorbTail bs (absorbBlocks bs (initAcc seed (BitVec.ofNat 64 bs.length)) (bs.length / 8)))

/-- The pure function hash32(b, s) (42_fold_unit.md R142). -/
def pureHash32 (bs : List Byte) (seed : Word) : BitVec 32 := fold32 (pureHash64 bs seed)

/-- The block's elements at the start of an operation (R114). -/
def Block.start (b : Block) (k : OpKind) : Block :=
  { b with acc := initAcc b.seed b.len, ptr := b.addr, rem := b.len, opk := k }

/-- Compressing one block of n bytes with value v (R121). -/
def Block.compress (b : Block) (n : Nat) (v : Word) : Block :=
  { b with acc := combine b.acc v, ptr := b.ptr + BitVec.ofNat 64 n, rem := b.rem - BitVec.ofNat 64 n }

/-- Finalisation (R123): ACC keeps the pre-mix value; only HASH32 writes RESULT32. -/
def Block.finish (b : Block) : Block :=
  { b with
    result64 := mix b.acc
    result32 := if b.opk = .h32 then (fold32 (mix b.acc)).setWidth 64 else b.result32
    done := true
    opk := .idle }

/-- The effect of an accepted HASH64 or HASH32 (R114, R143): the range check, then the start of the operation. Where a store
into the buffer is not yet visible, the host has broken its duty (R198) and the run has no meaning. -/
def startHash (k : OpKind) (s : State) : Result :=
  if rangeWraps s.blk.addr s.blk.len then .next (s.raise .addrRange)
  else if s.storePending s.blk.addr s.blk.len then .refused .bufferNotVisible
  else .next ((s.setBlk (s.blk.start k)).setLatch { seed := s.blk.seed, addr := s.blk.addr, len := s.blk.len })

/-- HASH64 written to CMD (R114, R153, R156). -/
def execHash64 (s : State) : Result := s.command 0x01 (startHash .h64)

/-- HASH32 written to CMD (R143, R153, R156). -/
def execHash32 (s : State) : Result := s.command 0x02 (startHash .h32)

/-- The engine's step (R120): enabled while BUSY = 1. A memory that does not answer leaves it stuck (R125), and a block with a
device's byte has no meaning (R66, R196). Where both hold of one block, or the block has an unreadable byte too, the spec gives
no order; DEDUCED (log entry 10): the refusal comes first, since R196 has a model refuse the run. -/
def engineStep (s : State) : Result :=
  if s.busy = false then .next s
  else if s.blk.blockSize = 0 then .next (s.setBlk s.blk.finish)
  else if s.blockDevice s.blk.ptr s.blk.blockSize then .refused .deviceRead
  else if s.plat.memAnswers = false then .next s
  else
    match s.memRead s.blk.ptr s.blk.blockSize with
    | .value v => .next (s.setBlk (s.blk.compress s.blk.blockSize v))
    | .busError => .next (s.raise .busError)

end Sys2Proof.Machine
end

