-- ==== Sys2Proof/Machine/Dispatch.lean ====
section
/-! DEFINITION. The meaning of each command: one arm per constructor. -/

namespace Sys2Proof.Machine

def exec (i : Instr) (s : State) : Host.Outcome State Fault Refusal :=
  match i with
  | .hash64 => Sys2Proof.Machine.execHash64 s
  | .hash32 => Sys2Proof.Machine.execHash32 s
  | .clrstat => Sys2Proof.Machine.execClrstat s

end Sys2Proof.Machine
end

