-- ==== Sys2Proof/Machine/Port.lean ====
section
/-! DEFINITION. The host's step: register transactions through the port (43_control.md R151–R153), its buffer stores, `wait`
(30_encoding.md R92), and the pseudo-instructions and start-state directives of R90–R93. -/

namespace Sys2Proof.Machine

/-- A word written to CMD: the decoded command's meaning, or the illegal command's (R153). -/
def cmdWrite (w : Word) (s : State) : Result :=
  match decode w with
  | .ok i => exec i s
  | .error _ => execIllegal w s

/-- RegWrite of an admitted access (R152). -/
def regWrite (off : Nat) (w : Word) (s : State) : Result :=
  match Reg.atOffset off with
  | .cmd => cmdWrite w s
  | r => .next (s.setBlk (s.blk.writeReg w r))

/-- RegRead of an admitted access: one response, nothing else (R151, R66). -/
def regRead (off : Nat) (s : State) : State := s.pushRead (s.blk.regValue (Reg.atOffset off))

/-- One `rd STATUS` of `wait`; while it reads BUSY = 1, `wait` goes on (R92). -/
def waitStep (s : State) : State :=
  if s.busy then (s.pushRead s.blk.statusWord).setHost (.wait :: s.host) else s.pushRead s.blk.statusWord

/-- One operation of the host. -/
def hostOp (op : HostOp) (s : State) : Result :=
  match op with
  | .read width off => if admitted width off then .next (regRead off s) else .refused .notAdmitted
  | .write width off w => if admitted width off then regWrite off w s else .refused .notAdmitted
  | .store a b => storeStep a b s
  | .fence => fenceStep s
  | .wait => .next (waitStep s)

/-- The host's step: its next operation; a host that asks for nothing leaves the block as it is (R185). -/
def hostStep (s : State) : Result :=
  match s.host with
  | [] => .next s
  | op :: ops => hostOp op (s.setHost ops)

/-- `wr REG, value` (R90). -/
def wr (r : Reg) (v : Word) : HostOp := .write 64 r.offset v

/-- `rd REG` (R90). -/
def rd (r : Reg) : HostOp := .read 64 r.offset

/-- `cmd HASH64`, `cmd HASH32`, `cmd CLRSTAT` (R91). -/
def cmd (i : Instr) : HostOp := wr .cmd (encode i)

/-- `cmd raw, value` (R91). -/
def cmdRaw (w : Word) : HostOp := wr .cmd w

/-- `hash64 a, l, s` (R93). -/
def callHash64 (a l seed : Word) : List HostOp :=
  [wr .seed seed, wr .addr a, wr .len l, cmd .hash64, .wait, rd .status, rd .result64]

/-- `hash32 a, l, s` (R93). -/
def callHash32 (a l seed : Word) : List HostOp :=
  [wr .seed seed, wr .addr a, wr .len l, cmd .hash32, .wait, rd .status, rd .result32]

/-- `.mem addr: b0 b1 ...`, a start-state directive (R90). -/
def State.withMem (s : State) (a : Word) : List Byte → State
  | [] => s
  | b :: bs => State.withMem (s.setMem (s.mem.write a.toNat b)) (a + 1) bs

/-- `.readable lo..hi`, a start-state directive (R90). -/
def State.withReadable (s : State) (lo hi : Nat) : State :=
  { s with plat := { s.plat with readable := { lo := lo, hi := hi } :: s.plat.readable } }

end Sys2Proof.Machine
end

