-- ==== Sys2Proof/Machine/Step.lean ====
section
/-! DEFINITION. One step of the machine (00_scope.md R6), and the state whose next step is one given command. -/

namespace Sys2Proof.Machine

/-- One step: the step of the agent whose turn it is, or reset. -/
def step (s : State) : Host.Outcome State Fault Refusal :=
  match s.turn with
  | .host => hostStep s.takeTurn
  | .engine => engineStep s.takeTurn
  | .memory => memoryStep s.takeTurn
  | .reset => .next s.takeTurn.doReset

/-- `s` with a CMD write of the command word queued as the host's next operation and the host's turn next (log entry 3):
the block has no program counter and fetches nothing; a command exists only as the value of one CMD write (R27, R72). -/
def State.withFetchWord (s : State) (nbits w : Nat) : State :=
  { s with
    host := .write 64 (Reg.offset .cmd) (BitVec.ofNat 64 (w % 2 ^ nbits)) :: s.host
    turns := .host :: s.turns }

end Sys2Proof.Machine
end

