-- ==== Sys2Proof/Safety.lean ====
section
/-! DEFINITION. The invariants of the machine and the terms in which its runs are described (10_state.md R33, R43;
20_memory.md R73; 41_loop_engine.md R124). -/

namespace Sys2Proof.Safety

open Sys2Proof.Machine

/-- The status invariants of R33, the codes of R170, the LASTOP of the operation in progress (R153) and RESULT32's upper half
(R39). "An operation was in progress since the last acceptance" (R33) is: the last accepted command started one, which is
still running, or completed, or ended with BUS_ERROR. -/
structure StatusInv (b : Block) : Prop where
  noErrNoCode : b.err = false → b.errcode = 0
  errCode : b.err = true → b.errcode = 1 ∨ b.errcode = 2 ∨ b.errcode = 3
  notDoneAndErr : ¬(b.done = true ∧ b.err = true)
  busyClear : b.busy = true → b.done = false ∧ b.err = false
  ovrAfterStart : b.ovr = true →
    (b.lastop = 1 ∨ b.lastop = 2) ∧ (b.busy = true ∨ b.done = true ∨ b.errcode = 3)
  doneHash : b.done = true → b.lastop = 1 ∨ b.lastop = 2
  h64Last : b.opk = .h64 → b.lastop = 1
  h32Last : b.opk = .h32 → b.lastop = 2
  result32High : b.result32 >>> 32 = 0

/-- The bytes of the operation in progress, the latched range of R73. -/
def buffer (s : State) : List Byte := s.bytesAt s.latch.addr s.latch.len.toNat

/-- h after the first `n` bytes of the buffer have gone through full blocks (R116), and after all of it, tail included (R117). -/
def partialHash (bs : List Byte) (seed : Word) (n : Nat) : Word :=
  if n = bs.length then
    absorbTail bs (absorbBlocks bs (initAcc seed (BitVec.ofNat 64 bs.length)) (bs.length / 8))
  else absorbBlocks bs (initAcc seed (BitVec.ofNat 64 bs.length)) (n / 8)

/-- What holds of an operation in progress: where the engine stands in the latched range (R24, R25, R121), that the range
passes R115, that the accumulator is the hash of the bytes read so far (R116, R117), and that no store into the range is on
its way (R73, R198). -/
structure OperationInv (s : State) : Prop where
  rangeLegal : s.busy = true → rangeWraps s.latch.addr s.latch.len = false
  remLeLen : s.busy = true → s.blk.rem.toNat ≤ s.latch.len.toNat
  ptrAt : s.busy = true → s.blk.ptr = s.latch.addr + (s.latch.len - s.blk.rem)
  wholeBlocks : s.busy = true → s.blk.rem ≠ 0 → (s.latch.len.toNat - s.blk.rem.toNat) % 8 = 0
  accAt : s.busy = true →
    s.blk.acc = partialHash (buffer s) s.latch.seed (s.latch.len.toNat - s.blk.rem.toNat)
  noStorePending : s.busy = true → s.storePending s.latch.addr s.latch.len = false

/-- The memory's canonical form, and stores whose addresses are 64-bit ones. -/
structure MemoryInv (s : State) : Prop where
  memWf : s.mem.wf = true
  storesInSpace : ∀ c ∈ s.stores, c.1 < 2 ^ 64

/-- floor(L/8) + (L mod 8 ≠ 0 ? 1 : 0) block reads of an operation of length L (R105, R124). -/
def blockCount (l : Nat) : Nat := l / 8 + (if l % 8 = 0 then 0 else 1)

/-- `k` engine steps in a row, stopping where one has no meaning. -/
def engineRun : Nat → State → Result
  | 0, s => .next s
  | k + 1, s =>
    match engineStep s with
    | .next t => engineRun k t
    | .fault r => .fault r
    | .refused r => .refused r

/-- A run without end, every step of it with a meaning, under the one assumption of 70_reset_and_hazards.md R200: while BUSY = 1
and the memory answers, the engine's step is eventually taken. The step itself allows every order of turns (R176, U12); this
premise is what rules the unfair ones out (log entry 4). -/
structure FairRun (r : Nat → State) : Prop where
  steps : ∀ n, step (r n) = .next (r (n + 1))
  engine : ∀ n, (r n).busy = true → (r n).plat.memAnswers = true → ∃ m ≥ n, (r m).busy = false ∨ (r m).turn = .engine

/-- The host goes on: while it has an operation left, it eventually takes a step (30_encoding.md R92 has `wait` repeat its read;
DEDUCED, log entry 4). -/
def HostGoesOn (r : Nat → State) : Prop := ∀ n, (r n).host ≠ [] → ∃ m ≥ n, (r m).turn = .host

/-- A buffer the engine can hash: for each of its bytes the memory answers, the byte is readable, and reading it has no side
effects (R62, R66, R125). -/
def bufferOk (s : State) (a l : Word) : Prop :=
  ∀ i < l.toNat, s.plat.memAnswers = true ∧ s.plat.readableAt (byteAddress a i) = true ∧
    s.plat.deviceAt (byteAddress a i) = false

end Sys2Proof.Safety
end

