-- ==== Sys2Proof/Certificates/Slice0/Obligations.lean ====
section
/-! DEFINITION. The statements for the provers, each from the rules of spec/ its docstring names. -/

open Sys2Proof Sys2Proof.Machine Sys2Proof.Safety

/-! ## Encoding and decoding -/

/-- R82's three words and their encodings, and one word of each class of R85. -/
def Obligations.CommandWordsOfTheTable : Prop :=
  decodeTableWord 64 0x0000000000000001 = some .hash64 ∧ decodeTableWord 64 0x0000000000000002 = some .hash32 ∧
  decodeTableWord 64 0x0000000000000003 = some .clrstat ∧
  encode .hash64 = 0x0000000000000001 ∧ encode .hash32 = 0x0000000000000002 ∧ encode .clrstat = 0x0000000000000003 ∧
  decode 0x0000000000000000 = .error .opZero ∧ decode 0x0000000000000004 = .error .opReserved ∧
  decode 0x000000000000007F = .error .opReserved ∧ decode 0x0000000000000080 = .error .opCustom ∧
  decode 0x00000000000000FF = .error .opCustom ∧ decode 0x0000000000000101 = .error .rsvdSet ∧
  decode 0x8000000000000003 = .error .rsvdSet

/-- Decoding and encoding agree (R80, R82, R83): every command is read back from its word, every word that decodes is a
command's word, and those words are the well-formed ones. -/
def Obligations.DecodeAndEncodeAgree : Prop :=
  (∀ i : Instr, decode (encode i) = .ok i) ∧ (∀ (w : Word) (i : Instr), decode w = .ok i → w = encode i) ∧
    ∀ w : Word, CmdWord.wf w = true ↔ ∃ i : Instr, decode w = .ok i

/-- The classes of illegal words (R85), each by the word's own number. -/
def Obligations.IllegalWordClasses : Prop :=
  ∀ w : Word,
    (decode w = .error .rsvdSet ↔ 0x100 ≤ w.toNat) ∧ (decode w = .error .opZero ↔ w.toNat = 0) ∧
    (decode w = .error .opReserved ↔ 0x04 ≤ w.toNat ∧ w.toNat ≤ 0x7F) ∧
    (decode w = .error .opCustom ↔ 0x80 ≤ w.toNat ∧ w.toNat ≤ 0xFF)

/-! ## How a step runs a command, and whose step it is -/

/-- A CMD write that is the host's next operation, in the host's turn, runs the command its word decodes to (R153, R72). -/
def Obligations.StepRunsQueuedCommand : Prop :=
  ∀ (s : State) (rest : List HostOp) (ts : List Turn) (w : Word) (i : Instr),
    s.turns = .host :: ts → s.host = .write 64 0x08 w :: rest → decode w = .ok i →
      step s = exec i { s with turns := ts, host := rest }

/-- The step after placing a command word runs exactly that command, on the state as it was (log entry 3). -/
def Obligations.FetchWordRunsTheCommand : Prop :=
  ∀ (s : State) (nbits w : Nat) (i : Instr), decodeTableWord nbits w = some i → step (s.withFetchWord nbits w) = exec i s

/-- Every step belongs to one agent (R6) or is reset (R190), as the state's first turn says; where the state names no turn, the
free value does (U12, log entry 4). The host's queue is the model's form (log entry 3). Of the reset clause, the block's values
are R190's; that the latch goes to its reset value is the model's choice (DESIGN CHOICE, log entry 6), and that memory,
platform, waiting stores, host queue, reads and turns survive reset is DEDUCED (log entry 14). -/
def Obligations.EveryStepBelongsToOneTurn : Prop :=
  (∀ (s : State) (ts : List Turn), s.turns = .host :: ts → s.host = [] → step s = .next { s with turns := ts }) ∧
  (∀ (s : State) (ts : List Turn) (op : HostOp) (ops : List HostOp), s.turns = .host :: ts → s.host = op :: ops →
    step s = hostOp op { s with turns := ts, host := ops }) ∧
  (∀ (s : State) (ts : List Turn), s.turns = .engine :: ts → step s = engineStep { s with turns := ts }) ∧
  (∀ (s : State) (ts : List Turn), s.turns = .memory :: ts → step s = memoryStep { s with turns := ts }) ∧
  (∀ (s : State) (ts : List Turn), s.turns = .reset :: ts →
    step s = .next { s with turns := ts, blk := Block.reset, latch := Latch.reset }) ∧
  ∀ s : State, s.turns = [] → step s = step { s with turns := [Config.freeTurn s.tick], tick := s.tick + 1 }

/-! ## The commands -/

/-- HASH64 accepted, its range legal and its buffer visible: the operation starts (R153, R114, R112). The latch is the model's
copy of the values of R73 and R43 (log entry 6); that the buffer is visible is R198's duty (log entry 5). -/
def Obligations.Hash64StartsOperation : Prop :=
  ∀ s : State, s.blk.opk = .idle → (s.blk.len = 0 ∨ s.blk.addr.toNat + s.blk.len.toNat ≤ 2 ^ 64) →
    (∀ c ∈ s.stores, ¬(s.blk.addr.toNat ≤ c.1 ∧ c.1 < s.blk.addr.toNat + s.blk.len.toNat)) →
    exec .hash64 s = .next { s with
      blk := { s.blk with
        done := false, err := false, ovr := false, errcode := 0, lastop := 0x01
        opk := .h64, acc := s.blk.seed ^^^ (s.blk.len * 0x880355f21e6d1965), ptr := s.blk.addr, rem := s.blk.len }
      latch := { seed := s.blk.seed, addr := s.blk.addr, len := s.blk.len } }

/-- HASH32 accepted, its range legal and its buffer visible: the operation starts, as HASH64's with OPK = H32 (R143);
log entries 5 and 6 as there. -/
def Obligations.Hash32StartsOperation : Prop :=
  ∀ s : State, s.blk.opk = .idle → (s.blk.len = 0 ∨ s.blk.addr.toNat + s.blk.len.toNat ≤ 2 ^ 64) →
    (∀ c ∈ s.stores, ¬(s.blk.addr.toNat ≤ c.1 ∧ c.1 < s.blk.addr.toNat + s.blk.len.toNat)) →
    exec .hash32 s = .next { s with
      blk := { s.blk with
        done := false, err := false, ovr := false, errcode := 0, lastop := 0x02
        opk := .h32, acc := s.blk.seed ^^^ (s.blk.len * 0x880355f21e6d1965), ptr := s.blk.addr, rem := s.blk.len }
      latch := { seed := s.blk.seed, addr := s.blk.addr, len := s.blk.len } }

/-- CLRSTAT accepted clears the status and nothing else, so that STATUS reads 0x00030000; while BUSY = 1 it only sets OVR;
its encoding; the worked example after an illegal word 0 (R150). -/
def Obligations.ClrstatClearsStatus : Prop :=
  decode 0x0000000000000003 = .ok .clrstat ∧
  (∀ s : State, s.blk.opk = .idle →
    exec .clrstat s = .next { s with
      blk := { s.blk with done := false, err := false, ovr := false, errcode := 0, lastop := 0x03 } }) ∧
  (∀ s t : State, s.blk.opk = .idle → exec .clrstat s = .next t → t.blk.statusWord = 0x00030000) ∧
  (∀ s : State, s.blk.opk ≠ .idle → exec .clrstat s = .next { s with blk := { s.blk with ovr := true } }) ∧
  ∀ s : State, s.blk.opk = .idle → ∃ t u : State, cmdWrite 0x0 s = .next t ∧ t.blk.statusWord = 0x00000104 ∧
    cmdWrite 0x3 t = .next u ∧ u.blk.statusWord = 0x00030000

/-- The range check of HASH64 and HASH32 (R115, R173): a range that wraps raises ADDR_RANGE and changes nothing but the
status; a range that ends at 2^64 or below, or is empty, raises nothing. -/
def Obligations.WrappingRangeRaisesAddrRange : Prop :=
  (∀ s : State, s.blk.opk = .idle → s.blk.len ≠ 0 → 2 ^ 64 < s.blk.addr.toNat + s.blk.len.toNat →
    exec .hash64 s = .next { s with
      blk := { s.blk with done := false, err := true, ovr := false, errcode := 2, lastop := 0x01 } } ∧
    exec .hash32 s = .next { s with
      blk := { s.blk with done := false, err := true, ovr := false, errcode := 2, lastop := 0x02 } }) ∧
  ∀ (s t : State) (i : Instr), s.blk.opk = .idle →
    (s.blk.len = 0 ∨ s.blk.addr.toNat + s.blk.len.toNat ≤ 2 ^ 64) → exec i s = .next t →
      t.blk.err = false ∧ t.blk.errcode = 0

/-- An accepted word that is none of R82's three raises ILLEGAL_CMD and changes nothing but the status; the worked examples
(R155, R174). -/
def Obligations.IllegalCommandRaises : Prop :=
  (∀ (s : State) (w : Word), s.blk.opk = .idle → w ≠ 1 → w ≠ 2 → w ≠ 3 →
    cmdWrite w s = .next { s with
      blk := { s.blk with done := false, err := true, ovr := false, errcode := 1, lastop := w.extractLsb' 0 8 } }) ∧
  ∀ s : State, s.blk.opk = .idle → ∃ t u v : State,
    cmdWrite 0x0 s = .next t ∧ t.blk.statusWord = 0x00000104 ∧
    cmdWrite 0x101 s = .next u ∧ u.blk.statusWord = 0x00010104 ∧
    cmdWrite 0x7 s = .next v ∧ v.blk.statusWord = 0x00070104

/-- A CMD write of any word while BUSY = 1 has exactly one effect, OVR = 1, also for the three commands; and OVR falls only
at the next acceptance or at reset (R156). -/
def Obligations.BusyCommandOnlySetsOvr : Prop :=
  (∀ (s : State) (w : Word), s.blk.opk ≠ .idle → cmdWrite w s = .next { s with blk := { s.blk with ovr := true } }) ∧
  (∀ (s : State) (i : Instr), s.blk.opk ≠ .idle → exec i s = .next { s with blk := { s.blk with ovr := true } }) ∧
  ∀ s t : State, step s = .next t → s.blk.ovr = true → t.blk.ovr = false →
    s.turn = .reset ∨
      (s.turn = .host ∧ s.busy = false ∧ ∃ (w : Word) (ops : List HostOp), s.host = .write 64 0x08 w :: ops)

/-- Acceptance of any word: the status is cleared, LASTOP recorded, the case taken by the exact word; results, FAULT_ADDR,
the operand registers and CTRL stay (R153). -/
def Obligations.AcceptanceByExactWord : Prop :=
  (∀ (s a : State) (w : Word), s.blk.opk = .idle →
    a = { s with blk := { s.blk with done := false, err := false, ovr := false, errcode := 0, lastop := w.extractLsb' 0 8 } } →
    cmdWrite w s =
      if w = 0x0000000000000001 then startHash .h64 a
      else if w = 0x0000000000000002 then startHash .h32 a
      else if w = 0x0000000000000003 then .next a
      else .next { a with blk := { a.blk with err := true, errcode := 1 } }) ∧
  ∀ (s t : State) (w : Word), s.blk.opk = .idle → cmdWrite w s = .next t →
    t.blk.result64 = s.blk.result64 ∧ t.blk.result32 = s.blk.result32 ∧ t.blk.faultAddr = s.blk.faultAddr ∧
    t.blk.seed = s.blk.seed ∧ t.blk.addr = s.blk.addr ∧ t.blk.len = s.blk.len ∧
    t.blk.doneIe = s.blk.doneIe ∧ t.blk.errIe = s.blk.errIe

/-- The frame of HASH64, HASH32 and CLRSTAT in every state: they write no byte of memory, no result, operand or control register
and no FAULT_ADDR, and CLRSTAT no internal state either (R84, R114, R143, R150, R153). That the platform's parameters stay is
log entry 2's choice; the turns, the queue and the waiting stores are the model's form (log entries 3, 4 and 5). -/
def Obligations.CommandFrame : Prop :=
  ∀ (i : Instr) (s t : State), exec i s = .next t →
    (∀ a : Nat, t.mem.read a = s.mem.read a) ∧ t.mem = s.mem ∧
    t.blk.result64 = s.blk.result64 ∧ t.blk.result32 = s.blk.result32 ∧ t.blk.faultAddr = s.blk.faultAddr ∧
    t.blk.seed = s.blk.seed ∧ t.blk.addr = s.blk.addr ∧ t.blk.len = s.blk.len ∧
    t.blk.doneIe = s.blk.doneIe ∧ t.blk.errIe = s.blk.errIe ∧
    t.plat = s.plat ∧ t.stores = s.stores ∧ t.host = s.host ∧ t.reads = s.reads ∧ t.turns = s.turns ∧ t.tick = s.tick ∧
    (i = .clrstat ∨ s.busy = true → t.blk.opk = s.blk.opk ∧ t.blk.acc = s.blk.acc ∧ t.blk.ptr = s.blk.ptr ∧
      t.blk.rem = s.blk.rem ∧ t.latch = s.latch)

/-- Acceptance drops the interrupt line: it is 0 after every accepted command that does not itself raise an error (R154). -/
def Obligations.AcceptanceDropsIrq : Prop :=
  ∀ (i : Instr) (s t : State), s.busy = false → exec i s = .next t → t.blk.err = false → t.blk.irq = false

/-- A hash accepted while a store into its buffer is not visible to the read port has no meaning (R198, U17; the waiting stores
are log entry 5). -/
def Obligations.InvisibleBufferHasNoMeaning : Prop :=
  ∀ (s : State) (c : Host.Cell), s.blk.opk = .idle →
    s.blk.addr.toNat + s.blk.len.toNat ≤ 2 ^ 64 → c ∈ s.stores →
    s.blk.addr.toNat ≤ c.1 → c.1 < s.blk.addr.toNat + s.blk.len.toNat →
    exec .hash64 s = .refused .bufferNotVisible ∧ exec .hash32 s = .refused .bufferNotVisible

/-! ## Arithmetic -/

/-- The mix sequence with its constant, and the worked example mix(1) (R100). -/
def Obligations.MixSequence : Prop :=
  (∀ x t1 t2 : Word, t1 = x ^^^ (x >>> 23) → t2 = t1 * 0x2127599bf4325c37 → mix x = t2 ^^^ (t2 >>> 47)) ∧
    mix 0 = 0 ∧ mix 1 = 0x2127599bf4321e79

/-- mix(0) = 0, mix is a bijection, and bits [63:17] of t2 pass through the last step: the spec's own
derivation from R100 (40_mixer.md R104, derived). -/
def Obligations.MixIsBijective : Prop :=
  mix 0 = 0 ∧ Function.Bijective mix ∧
    ∀ x : Word, (mix x).extractLsb' 17 47 = ((x ^^^ (x >>> 23)) * 0x2127599bf4325c37).extractLsb' 17 47

/-- The compression step mixes v first, folds it into h, then scales h (R113). -/
def Obligations.CombineMixesFoldsScales : Prop :=
  ∀ h v : Word, combine h v = (h ^^^ mix v) * 0x880355f21e6d1965

/-- fold32 is the low half of h - (h >> 32), and the difference of the halves modulo 2^32 (R140; the second form is
the spec's own derivation, R141). -/
def Obligations.FoldIsDifferenceOfHalves : Prop :=
  (∀ h : Word, (fold32 h).toNat = (h - (h >>> 32)).toNat % 2 ^ 32) ∧
  (∀ h : Word, fold32 h = h.extractLsb' 0 32 - h.extractLsb' 32 32) ∧
  fold32 0x123456789abcdef0 = 0x88888878 ∧ fold32 0x0000000100000000 = 0xffffffff ∧ fold32 0xffffffffffffffff = 0

/-- The pure function hash32 is the fold of hash64 (R142). -/
def Obligations.Hash32IsFoldOfHash64 : Prop :=
  ∀ (bs : List Byte) (seed : Word),
    (pureHash32 bs seed).toNat = (pureHash64 bs seed - (pureHash64 bs seed >>> 32)).toNat % 2 ^ 32

/-- The pure function hash64 (R118), for a byte sequence cut into its full blocks and its tail: the blocks in order, then the
zero-padded tail, which is skipped where it is empty, then one final mix; and LE64, byte i at bits [8i+7:8i] and 0 above. -/
def Obligations.HashAbsorbsBlocksThenTail : Prop :=
  (∀ (blocks : List (List Byte)) (seed : Word), (∀ b ∈ blocks, b.length = 8) →
    pureHash64 blocks.flatten seed =
      mix (blocks.foldl (fun h b => (h ^^^ mix (le64 b)) * 0x880355f21e6d1965)
        (seed ^^^ (BitVec.ofNat 64 (8 * blocks.length) * 0x880355f21e6d1965)))) ∧
  (∀ bs : List Byte, bs.length ≤ 8 → (le64 bs).toNat < 2 ^ (8 * bs.length) ∧
    ∀ (i : Nat) (h : i < bs.length), (le64 bs).extractLsb' (8 * i) 8 = bs[i]) ∧
  ∀ (blocks : List (List Byte)) (tail : List Byte) (seed : Word), (∀ b ∈ blocks, b.length = 8) →
    0 < tail.length → tail.length < 8 →
    pureHash64 (blocks.flatten ++ tail) seed =
      mix ((blocks ++ [tail]).foldl (fun h b => (h ^^^ mix (le64 b)) * 0x880355f21e6d1965)
        (seed ^^^ (BitVec.ofNat 64 (8 * blocks.length + tail.length) * 0x880355f21e6d1965)))

/-! ## The engine -/

/-- MemRead (R61, R62): little-endian, the unread high bytes 0, and a bus error where some byte is not readable. -/
def Obligations.BlockReadIsLittleEndian : Prop :=
  ∀ (s : State) (a : Word) (n : Nat), 1 ≤ n → n ≤ 8 →
    ((∀ i < n, s.plat.readableAt (byteAddress a i) = true) →
      ∃ v : Word, s.memRead a n = .value v ∧ (∀ i < n, v.extractLsb' (8 * i) 8 = s.mem.read (byteAddress a i)) ∧
        v.toNat < 2 ^ (8 * n)) ∧
    ((∃ i < n, s.plat.readableAt (byteAddress a i) = false) → s.memRead a n = .busError)

/-- The engine is disabled while BUSY = 0, and its step neither reads nor writes CTRL, SEED, ADDR and LEN (R120, R157): with
other values in them it does the same. -/
def Obligations.EngineIgnoresHostRegisters : Prop :=
  (∀ s : State, s.busy = false → engineStep s = .next s) ∧
  ∀ (s : State) (seed addr len : Word) (doneIe errIe : Bool),
    (∀ t : State, engineStep s = .next t →
      engineStep { s with blk := { s.blk with seed := seed, addr := addr, len := len, doneIe := doneIe, errIe := errIe } } =
        .next { t with blk := { t.blk with seed := seed, addr := addr, len := len, doneIe := doneIe, errIe := errIe } }) ∧
    ∀ r : Refusal, engineStep s = .refused r →
      engineStep { s with blk := { s.blk with seed := seed, addr := addr, len := len, doneIe := doneIe, errIe := errIe } } =
        .refused r

/-- Compressing one block (R121): ACC, PTR and REM, and nothing else. A block with a device's byte is
`Obligations.DeviceReadHasNoMeaning`'s, a silent memory `Obligations.SilentMemoryLeavesBusy`'s. -/
def Obligations.EngineCompressesBlock : Prop :=
  ∀ (s : State) (n : Nat) (v : Word), s.blk.opk ≠ .idle → n = min s.blk.rem.toNat 8 → n ≠ 0 → s.plat.memAnswers = true →
    (∀ i < n, s.plat.deviceAt (byteAddress s.blk.ptr i) = false) → s.memRead s.blk.ptr n = .value v →
    engineStep s = .next { s with
      blk := { s.blk with
        acc := (s.blk.acc ^^^ mix v) * 0x880355f21e6d1965
        ptr := s.blk.ptr + BitVec.ofNat 64 n
        rem := s.blk.rem - BitVec.ofNat 64 n } }

/-- Stopping on a bus error (R122): ERR, ERRCODE, FAULT_ADDR and OPK, and nothing else; no later block is read. A block
with a device's byte is `Obligations.DeviceReadHasNoMeaning`'s, a silent memory `Obligations.SilentMemoryLeavesBusy`'s. -/
def Obligations.EngineStopsOnBusError : Prop :=
  ∀ s t : State, s.blk.opk ≠ .idle → s.blk.rem ≠ 0 → s.plat.memAnswers = true →
    (∀ i < min s.blk.rem.toNat 8, s.plat.deviceAt (byteAddress s.blk.ptr i) = false) →
    s.memRead s.blk.ptr (min s.blk.rem.toNat 8) = .busError →
    t = { s with blk := { s.blk with err := true, errcode := 3, faultAddr := s.blk.ptr, opk := .idle } } →
    engineStep s = .next t ∧ engineStep t = .next t

/-- Finalisation (R123), of HASH64 and of HASH32: the results, DONE and OPK, and nothing else. -/
def Obligations.EngineFinalises : Prop :=
  (∀ s : State, s.blk.opk = .h64 → s.blk.rem = 0 →
    engineStep s = .next { s with blk := { s.blk with result64 := mix s.blk.acc, done := true, opk := .idle } }) ∧
  ∀ s : State, s.blk.opk = .h32 → s.blk.rem = 0 →
    engineStep s = .next { s with
      blk := { s.blk with
        result64 := mix s.blk.acc, result32 := (fold32 (mix s.blk.acc)).setWidth 64, done := true, opk := .idle } }

/-- A block with a byte in the block's own window or in a region with read side effects has no meaning (R66, R196, U5), readable
or not and whether or not the memory answers: that the refusal comes before a bus error and before a silent memory is DEDUCED
(log entry 10). At which
buffer addresses the own window stands, if at any, is the platform's parameter (log entry 15). -/
def Obligations.DeviceReadHasNoMeaning : Prop :=
  ∀ (s : State) (i : Nat), s.blk.opk ≠ .idle → i < min s.blk.rem.toNat 8 →
    (∃ r ∈ s.plat.ownWindow ++ s.plat.sideEffect, r.lo ≤ byteAddress s.blk.ptr i ∧ byteAddress s.blk.ptr i ≤ r.hi) →
    engineStep s = .refused .deviceRead

/-- A memory that never answers leaves the engine stuck: no step but reset ends BUSY or moves ACC, PTR or REM
(R125, U7). That its turns then do nothing is DEDUCED (log entry 7). -/
def Obligations.SilentMemoryLeavesBusy : Prop :=
  ∀ s t : State, s.busy = true → s.blk.rem ≠ 0 → s.plat.memAnswers = false → s.turn ≠ .reset → step s = .next t →
    t.busy = true ∧ t.blk.opk = s.blk.opk ∧ t.blk.acc = s.blk.acc ∧ t.blk.ptr = s.blk.ptr ∧ t.blk.rem = s.blk.rem

/-- The engine asks only for bytes of the latched range, 8 at a time, or the tail's LEN mod 8 at the end (R64, R120). -/
def Obligations.EngineReadsOnlyTheBuffer : Prop :=
  ∀ (s : State) (p : Word) (n : Nat), OperationInv s → s.blk.memRequest = some (p, n) →
    1 ≤ n ∧ (n = 8 ∨ (n = s.latch.len.toNat % 8 ∧ n = s.blk.rem.toNat)) ∧
    ∀ i < n, s.latch.addr.toNat ≤ byteAddress p i ∧ byteAddress p i < s.latch.addr.toNat + s.latch.len.toNat

/-! ## The register port -/

/-- RegRead (R151): for every admitted offset exactly one response with the register's value and no other change; for every
other width or offset a refusal. -/
def Obligations.RegReadReturnsRegister : Prop :=
  ∀ s : State,
    hostOp (.read 64 0x00) s = .next { s with reads := s.reads ++ [0x4648363400010000] } ∧
    hostOp (.read 64 0x08) s = .next { s with reads := s.reads ++ [0] } ∧
    hostOp (.read 64 0x10) s = .next { s with reads := s.reads ++ [s.blk.statusWord] } ∧
    hostOp (.read 64 0x18) s =
      .next { s with reads := s.reads ++ [BitVec.ofNat 64 (2 * s.blk.errIe.toNat + s.blk.doneIe.toNat)] } ∧
    hostOp (.read 64 0x20) s = .next { s with reads := s.reads ++ [s.blk.seed] } ∧
    hostOp (.read 64 0x28) s = .next { s with reads := s.reads ++ [s.blk.addr] } ∧
    hostOp (.read 64 0x30) s = .next { s with reads := s.reads ++ [s.blk.len] } ∧
    hostOp (.read 64 0x38) s = .next { s with reads := s.reads ++ [s.blk.result64] } ∧
    hostOp (.read 64 0x40) s = .next { s with reads := s.reads ++ [s.blk.result32] } ∧
    hostOp (.read 64 0x48) s = .next { s with reads := s.reads ++ [s.blk.faultAddr] } ∧
    (∀ off : Nat, 0x50 ≤ off → off < 0x80 → off % 8 = 0 →
      hostOp (.read 64 off) s = .next { s with reads := s.reads ++ [0] }) ∧
    ∀ width off : Nat, width ≠ 64 ∨ off % 8 ≠ 0 ∨ 0x80 ≤ off → hostOp (.read width off) s = .refused .notAdmitted

/-- RegWrite (R152): CTRL, SEED, ADDR and LEN take the value, CMD starts a command or overruns, every other offset ignores it,
and every other width or offset is refused. -/
def Obligations.RegWriteEffects : Prop :=
  ∀ (s : State) (w : Word),
    hostOp (.write 64 0x08 w) s = cmdWrite w s ∧
    hostOp (.write 64 0x18 w) s = .next { s with blk := { s.blk with doneIe := w.getLsbD 0, errIe := w.getLsbD 1 } } ∧
    hostOp (.write 64 0x20 w) s = .next { s with blk := { s.blk with seed := w } } ∧
    hostOp (.write 64 0x28 w) s = .next { s with blk := { s.blk with addr := w } } ∧
    hostOp (.write 64 0x30 w) s = .next { s with blk := { s.blk with len := w } } ∧
    (∀ off : Nat, off = 0x00 ∨ off = 0x10 ∨ off = 0x38 ∨ off = 0x40 ∨ off = 0x48 ∨ (0x50 ≤ off ∧ off < 0x80 ∧ off % 8 = 0) →
      hostOp (.write 64 off w) s = .next s) ∧
    ∀ width off : Nat, width ≠ 64 ∨ off % 8 ≠ 0 ∨ 0x80 ≤ off → hostOp (.write width off w) s = .refused .notAdmitted

/-- CTRL keeps w[1:0] and nothing else, in any state, also while BUSY = 1, and the interrupt line follows at once (R34). -/
def Obligations.CtrlKeepsTwoBits : Prop :=
  (∀ (s : State) (w : Word), ∃ t : State, hostOp (.write 64 0x18 w) s = .next t ∧
    t.blk.ctrlWord = w &&& 3 ∧ t.blk.irq = ((s.blk.done && w.getLsbD 0) || ((s.blk.err || s.blk.ovr) && w.getLsbD 1))) ∧
  State.reset.blk.ctrlWord = 0

/-- The interrupt line, and that clearing CTRL masks it without clearing a flag (R175). -/
def Obligations.IrqFollowsFlagsAndEnables : Prop :=
  (∀ b : Block, b.irq = true ↔
    (b.done = true ∧ b.doneIe = true) ∨ ((b.err = true ∨ b.ovr = true) ∧ b.errIe = true)) ∧
  ∀ s : State, ∃ t : State, hostOp (.write 64 0x18 0) s = .next t ∧ t.blk.irq = false ∧
    t.blk.done = s.blk.done ∧ t.blk.err = s.blk.err ∧ t.blk.ovr = s.blk.ovr

/-- STATUS as R33 lays it out: LASTOP, ERRCODE, OVR, ERR, DONE and BUSY in their bits and 0 elsewhere. -/
def Obligations.StatusWordLayout : Prop :=
  ∀ b : Block, b.statusWord.toNat =
    b.lastop.toNat * 2 ^ 16 + b.errcode.toNat * 2 ^ 8 + b.ovr.toNat * 2 ^ 3 + b.err.toNat * 2 ^ 2 + b.done.toNat * 2 +
      (if b.opk = .idle then 0 else 1)

/-- What the host reads while BUSY = 1 (R158): STATUS with BUSY = 1, DONE = 0, ERR = 0. -/
def Obligations.BusyStatusRead : Prop :=
  ∀ s t : State, StatusInv s.blk → s.busy = true → hostOp (.read 64 0x10) s = .next t →
    ∃ v : Word, t.reads = s.reads ++ [v] ∧ v.getLsbD 0 = true ∧ v.getLsbD 1 = false ∧ v.getLsbD 2 = false ∧
      v.extractLsb' 8 4 = 0

/-- `wait` reads STATUS once a step and goes on while BUSY reads 1 (R92). That it stays at the head of the host's operations is
the model's form (log entry 3). -/
def Obligations.WaitPollsUntilIdle : Prop :=
  (∀ s : State, s.busy = true →
    hostOp .wait s = .next { s with reads := s.reads ++ [s.blk.statusWord], host := .wait :: s.host }) ∧
  (∀ s : State, s.busy = false → hostOp .wait s = .next { s with reads := s.reads ++ [s.blk.statusWord] }) ∧
  ∀ s : State, s.blk.statusWord.getLsbD 0 = s.busy

/-- Reads come in request order with one response each, and a step with a response changes neither block nor memory
(R29, R66). -/
def Obligations.ReadsHaveOneResponseAndNoEffect : Prop :=
  ∀ s t : State, step s = .next t →
    t.reads = s.reads ∨
      (s.turn = .host ∧ t.blk = s.blk ∧ t.mem = s.mem ∧ t.latch = s.latch ∧ ∃ v : Word, t.reads = s.reads ++ [v])

/-- The platform's decode of a bus address is the inverse of R86's, whatever REG_BASE is (R9, R29; REG_BASE is held as its upper
bits, log entry 2). REG_BASE places the window in the host's map and nothing else: no step depends on its value, so no byte of
buffer memory is reserved by it (R60, R67, 92 D3; log entry 15). -/
def Obligations.WindowDecodeInvertsBusAddress : Prop :=
  (∀ (p : Platform) (off : Nat), off < 0x80 →
    p.windowOffset (p.busAddress off) = some off ∧ p.regBase.toNat % 128 = 0) ∧
  ∀ (s : State) (page : BitVec 57),
    (∀ t : State, step s = .next t →
      step { s with plat := { s.plat with windowPage := page } } =
        .next { t with plat := { t.plat with windowPage := page } }) ∧
    ∀ e : Refusal, step s = .refused e → step { s with plat := { s.plat with windowPage := page } } = .refused e

/-! ## Memory -/

/-- A host's store waits, and its fence makes every waiting store visible to the read port, the youngest one of each address, and
changes no other byte (R69 item 4, R70); so a store and its fence, busy or not, where no byte stored is of the latched range of an
operation in progress. Waiting stores and the fence are the model's form (log entry 5). What a store into the register
window or into the latched range does is `Obligations.BorrowedWriteHasNoMeaning`'s. -/
def Obligations.FenceMakesStoreVisible : Prop :=
  (∀ (s : State) (a : Word) (b : Byte), MemoryInv s → s.stores = [] → s.busy = false → s.plat.inWindow a.toNat = false →
    ∃ u t : State, hostOp (.store a b) s = .next u ∧ u.mem = s.mem ∧ hostOp .fence u = .next t ∧ t.stores = [] ∧
      t.blk = s.blk ∧ t.mem.read a.toNat = b ∧ ∀ x : Nat, x ≠ a.toNat → t.mem.read x = s.mem.read x) ∧
  (∀ (s : State) (a : Word) (b : Byte), s.plat.inWindow a.toNat = false →
    (s.blk.opk = .idle ∨ ¬(s.latch.addr.toNat ≤ a.toNat ∧ a.toNat < s.latch.addr.toNat + s.latch.len.toNat)) →
    hostOp (.store a b) s = .next { s with stores := s.stores ++ [(a.toNat, b)] }) ∧
  ∀ s : State, MemoryInv s →
    (∀ c ∈ s.stores, s.blk.opk = .idle ∨
      ¬(s.latch.addr.toNat ≤ c.1 ∧ c.1 < s.latch.addr.toNat + s.latch.len.toNat)) →
    ∃ m : Memory, hostOp .fence s = .next { s with mem := m, stores := [] } ∧
      ∀ x : Nat, m.read x = s.stores.foldl (fun v c => if c.1 = x then c.2 else v) (s.mem.read x)

/-- The memory agent's turn makes the oldest waiting store visible, at its address and nowhere else, and changes nothing else;
with no store waiting it changes nothing (R69 item 4, R198). Waiting stores and their order are the model's form (log entry 5).
-/
def Obligations.MemoryTurnShowsOldestStore : Prop :=
  (∀ (s : State) (c : Host.Cell) (cs : List Host.Cell), MemoryInv s → s.stores = c :: cs →
    (s.blk.opk = .idle ∨ ¬(s.latch.addr.toNat ≤ c.1 ∧ c.1 < s.latch.addr.toNat + s.latch.len.toNat)) →
    ∃ m : Memory, memoryStep s = .next { s with mem := m, stores := cs } ∧ m.read c.1 = c.2 ∧
      ∀ x : Nat, x ≠ c.1 → m.read x = s.mem.read x) ∧
  ∀ s : State, s.stores = [] → memoryStep s = .next s

/-- A write into the latched range while BUSY = 1 has no meaning: a store is refused, and so are the memory agent's turn whose oldest
waiting store is to such a byte, and a fence with any waiting store to one (R73, R196, U4; log entries 5 and 6). A byte store into
the register window, at the buffer addresses where the platform has it (log entry 15), is refused in every state: DEDUCED from
R151 and D4 (log entry 11). -/
def Obligations.BorrowedWriteHasNoMeaning : Prop :=
  (∀ (s : State) (a : Word) (b : Byte), s.blk.opk ≠ .idle → s.latch.addr.toNat ≤ a.toNat →
    a.toNat < s.latch.addr.toNat + s.latch.len.toNat → s.plat.inWindow a.toNat = false →
    hostOp (.store a b) s = .refused .bufferWritten) ∧
  (∀ (s : State) (c : Host.Cell) (cs : List Host.Cell), s.blk.opk ≠ .idle → s.stores = c :: cs →
    s.latch.addr.toNat ≤ c.1 → c.1 < s.latch.addr.toNat + s.latch.len.toNat →
    memoryStep s = .refused .bufferWritten) ∧
  (∀ (s : State) (c : Host.Cell), s.blk.opk ≠ .idle → c ∈ s.stores →
    s.latch.addr.toNat ≤ c.1 → c.1 < s.latch.addr.toNat + s.latch.len.toNat →
    hostOp .fence s = .refused .bufferWritten) ∧
  ∀ (s : State) (a : Word) (b : Byte), s.plat.inWindow a.toNat = true → hostOp (.store a b) s = .refused .notAdmitted

/-- While BUSY = 1 no step that has a meaning changes a byte of the latched range (R69 item 5, R73; log entries 5 and 6). -/
def Obligations.BufferStableWhileBusy : Prop :=
  ∀ s t : State, s.busy = true → step s = .next t →
    ∀ x : Nat, s.latch.addr.toNat ≤ x → x < s.latch.addr.toNat + s.latch.len.toNat → t.mem.read x = s.mem.read x

/-- The block never writes buffer memory (R60). That memory changes only where a waiting store becomes visible, at the memory
agent's turn or the host's fence and not at the host's store itself, and only at that store's address, is the model's choice
(DESIGN CHOICE, log entry 5), and so is that no step changes the platform's parameters (DESIGN CHOICE, log entry 2). -/
def Obligations.OnlyHostStoresChangeMemory : Prop :=
  ∀ s t : State, step s = .next t → t.plat = s.plat ∧
    (t.mem ≠ s.mem → s.turn = .memory ∨ (s.turn = .host ∧ ∃ ops : List HostOp, s.host = .fence :: ops)) ∧
    ∀ x : Nat, t.mem.read x ≠ s.mem.read x → ∃ c ∈ s.stores, c.1 = x

/-! ## Reset -/

/-- The reset step (R190, R191): every element of the block at its reset value, no pending engine step, and nothing outside
the block changed; the state after reset has the same values. That the platform, the memory and the host stay is
DEDUCED (log entry 14). -/
def Obligations.ResetRestoresEveryElement : Prop :=
  (∀ s : State, s.turn = .reset → ∃ t : State, step s = .next t ∧
    t.blk = State.reset.blk ∧ t.mem = s.mem ∧ t.plat = s.plat ∧ t.stores = s.stores ∧ t.host = s.host ∧ t.reads = s.reads ∧
    engineStep t = .next t) ∧
  State.reset.blk =
    { opk := .idle, acc := 0, ptr := 0, rem := 0, done := false, err := false, ovr := false, errcode := 0, lastop := 0
      doneIe := false, errIe := false, seed := 0, addr := 0, len := 0, result64 := 0, result32 := 0, faultAddr := 0 } ∧
  State.reset.blk.statusWord = 0 ∧ State.reset.blk.irq = false

/-- HASH64 and HASH32 straight after reset hash the empty buffer with seed 0: no memory is read, and both results are 0:
the spec's own derivation (70_reset_and_hazards.md R193, derived). -/
def Obligations.HashStraightAfterReset : Prop :=
  (∃ t u : State, exec .hash64 State.reset = .next t ∧ t.busy = true ∧ t.blk.memRequest = none ∧ engineStep t = .next u ∧
    u.blk.done = true ∧ u.blk.result64 = 0 ∧ u.busy = false) ∧
  ∃ t u : State, exec .hash32 State.reset = .next t ∧ t.busy = true ∧ t.blk.memRequest = none ∧ engineStep t = .next u ∧
    u.blk.done = true ∧ u.blk.result64 = 0 ∧ u.blk.result32 = 0 ∧ u.busy = false

/-! ## Whole operations -/

/-- Zero length (41_loop_engine.md R127, derived): at any ADDR, whatever is readable and whether or not the memory answers,
HASH64 reads nothing and one engine step completes it with RESULT64 = mix(SEED), which is 0 for SEED = 0. -/
def Obligations.ZeroLengthHashesSeed : Prop :=
  (∀ s : State, s.blk.opk = .idle → s.blk.len = 0 → ∃ t u : State, exec .hash64 s = .next t ∧ t.busy = true ∧
    t.blk.memRequest = none ∧ engineStep t = .next u ∧ u.busy = false ∧ u.blk.done = true ∧ u.blk.result64 = mix s.blk.seed ∧
    (s.blk.seed = 0 → u.blk.result64 = 0)) ∧
  ∀ seed : Word, pureHash64 [] seed = mix seed

/-- The HASH64 command, from the CMD write to completion (R114, R118, R124): over a legal, visible, readable buffer, exactly
blockCount(LEN) + 1 engine steps, BUSY = 1 after each one before the last, leave RESULT64 = hash64 of the buffer at acceptance,
DONE = 1, PTR = ADDR + LEN and REM = 0; RESULT32 and everything outside the operation stay. The queue, the turns, the waiting
stores and the latch are the model's form (log entries 3 to 6). -/
def Obligations.Hash64RunsToCompletion : Prop :=
  ∀ (s : State) (rest : List HostOp) (ts : List Turn),
    s.host = .write 64 0x08 0x0000000000000001 :: rest →
    s.turns = .host :: (List.replicate (blockCount s.blk.len.toNat + 1) .engine ++ ts) →
    s.blk.opk = .idle → (s.blk.len = 0 ∨ s.blk.addr.toNat + s.blk.len.toNat ≤ 2 ^ 64) →
    s.storePending s.blk.addr s.blk.len = false → bufferOk s s.blk.addr s.blk.len →
    ∃ acc : Word,
      Host.Core.run Sys2Proof.core (blockCount s.blk.len.toNat + 2) s = .next
        ({ s with
          host := rest, turns := ts
          latch := { seed := s.blk.seed, addr := s.blk.addr, len := s.blk.len }
          blk := { s.blk with
            opk := .idle, acc := acc, ptr := s.blk.addr + s.blk.len, rem := 0
            done := true, err := false, ovr := false, errcode := 0, lastop := 0x01
            result64 := pureHash64 (s.bytesAt s.blk.addr s.blk.len.toNat) s.blk.seed } } : State) ∧
      pureHash64 (s.bytesAt s.blk.addr s.blk.len.toNat) s.blk.seed = mix acc ∧
      ∀ j ≤ blockCount s.blk.len.toNat, ∃ u : State, Host.Core.run Sys2Proof.core (j + 1) s = .next u ∧ u.busy = true

/-- The HASH32 command, from the CMD write to completion (R143, R142, R124): as HASH64, and RESULT32 is the fold of the same
hash; BUSY = 1 after each engine step before the last. The queue, the turns, the waiting stores and the latch are the model's
form (log entries 3 to 6). -/
def Obligations.Hash32RunsToCompletion : Prop :=
  ∀ (s : State) (rest : List HostOp) (ts : List Turn),
    s.host = .write 64 0x08 0x0000000000000002 :: rest →
    s.turns = .host :: (List.replicate (blockCount s.blk.len.toNat + 1) .engine ++ ts) →
    s.blk.opk = .idle → (s.blk.len = 0 ∨ s.blk.addr.toNat + s.blk.len.toNat ≤ 2 ^ 64) →
    s.storePending s.blk.addr s.blk.len = false → bufferOk s s.blk.addr s.blk.len →
    ∃ acc : Word,
      Host.Core.run Sys2Proof.core (blockCount s.blk.len.toNat + 2) s = .next
        ({ s with
          host := rest, turns := ts
          latch := { seed := s.blk.seed, addr := s.blk.addr, len := s.blk.len }
          blk := { s.blk with
            opk := .idle, acc := acc, ptr := s.blk.addr + s.blk.len, rem := 0
            done := true, err := false, ovr := false, errcode := 0, lastop := 0x02
            result64 := pureHash64 (s.bytesAt s.blk.addr s.blk.len.toNat) s.blk.seed
            result32 := (pureHash32 (s.bytesAt s.blk.addr s.blk.len.toNat) s.blk.seed).setWidth 64 } } : State) ∧
      pureHash64 (s.bytesAt s.blk.addr s.blk.len.toNat) s.blk.seed = mix acc ∧
      ∀ j ≤ blockCount s.blk.len.toNat, ∃ u : State, Host.Core.run Sys2Proof.core (j + 1) s = .next u ∧ u.busy = true

/-- A bus error is precise (R122, R171, R176): from an operation in progress, if the first k blocks are good and block k has
an unreadable byte, then after k + 1 engine steps ACC holds exactly the k blocks before, PTR and FAULT_ADDR are block k's
first byte, REM includes it, and no result has changed. -/
def Obligations.BusErrorIsPrecise : Prop :=
  ∀ (s : State) (k i : Nat), s.blk.opk ≠ .idle → s.plat.memAnswers = true →
    (∀ j, j < s.blk.rem.toNat → j < 8 * k + 8 → s.plat.deviceAt (byteAddress s.blk.ptr j) = false) →
    (∀ j < 8 * k, s.plat.readableAt (byteAddress s.blk.ptr j) = true) →
    8 * k ≤ i → i < 8 * k + 8 → i < s.blk.rem.toNat → s.plat.readableAt (byteAddress s.blk.ptr i) = false →
    engineRun (k + 1) s = .next { s with
      blk := { s.blk with
        opk := .idle, err := true, errcode := 3, faultAddr := s.blk.ptr + BitVec.ofNat 64 (8 * k)
        acc := absorbBlocks (s.bytesAt s.blk.ptr s.blk.rem.toNat) s.blk.acc k
        ptr := s.blk.ptr + BitVec.ofNat 64 (8 * k), rem := s.blk.rem - BitVec.ofNat 64 (8 * k) } }

/-- Purity and no aliasing (10_state.md R43 and 20_memory.md R74, both derived by the spec): two operations of one kind with the
same seed and length over buffers that hold the same bytes, at whatever addresses and whatever else the two machines hold, give
the same results. -/
def Obligations.SameBytesSameHash : Prop :=
  ∀ (s t : State) (k : OpKind), k ≠ .idle → s.blk.opk = k → t.blk.opk = k → OperationInv s → OperationInv t →
    s.latch.seed = t.latch.seed → s.latch.len = t.latch.len →
    (∀ i < s.latch.len.toNat, s.mem.read (byteAddress s.latch.addr i) = t.mem.read (byteAddress t.latch.addr i)) →
    s.blk.rem = 0 → t.blk.rem = 0 →
    ∃ s' t' : State, engineStep s = .next s' ∧ engineStep t = .next t' ∧ s'.blk.result64 = t'.blk.result64 ∧
      (k = .h32 → s'.blk.result32 = t'.blk.result32)

/-- Whatever the host and the memory did meanwhile, an operation that completes leaves the hash of its buffer: the finalising
step of any state that meets the operation invariant writes hash64 of the latched range, and for HASH32 its fold
(R69, R118, R123, R142; the spec derives it in R43 and R124). The latch is log entry 6. -/
def Obligations.CompletionWritesHashOfBuffer : Prop :=
  ∀ s : State, OperationInv s → s.busy = true → s.blk.rem = 0 →
    ∃ t : State, engineStep s = .next t ∧ t.busy = false ∧ t.blk.done = true ∧
      t.blk.result64 = pureHash64 (buffer s) s.latch.seed ∧
      (s.blk.opk = .h32 → t.blk.result32 = (pureHash32 (buffer s) s.latch.seed).setWidth 64) ∧
      (s.blk.opk = .h64 → t.blk.result32 = s.blk.result32)

/-! ## What steps keep -/

/-- The invariants hold right after reset (R190, R33; log entries 1, 6 and 13). -/
def Obligations.InvariantsHoldAtReset : Prop :=
  StatusInv State.reset.blk ∧ MemoryInv State.reset ∧ OperationInv State.reset

/-- Every step keeps the status invariants that 10_state.md R33 derives, with R170's codes and R39's upper half; how "an
operation was in progress since the last acceptance" is expressed is DEDUCED (log entry 13). -/
def Obligations.StepKeepsStatusInvariant : Prop :=
  ∀ s t : State, StatusInv s.blk → step s = .next t → StatusInv t.blk

/-- Every step keeps the memory's canonical form, the model's representation of `mem` (log entry 1). -/
def Obligations.StepKeepsMemoryCanonical : Prop :=
  ∀ s t : State, MemoryInv s → step s = .next t → MemoryInv t

/-- Every step, of whichever agent, keeps the operation invariant: the engine stands where R121 puts it and ACC is the hash of
the bytes read so far (R24, R25, R69, R116, R117, R121; log entries 5 and 6). -/
def Obligations.StepKeepsOperationInvariant : Prop :=
  ∀ s t : State, OperationInv s → step s = .next t → OperationInv t

/-- The results change only at a completing engine step, RESULT32 only at HASH32's, and FAULT_ADDR only at a bus error, reset
apart (R38, R39, R40, R158). -/
def Obligations.ResultsChangeOnlyAtCompletion : Prop :=
  ∀ s t : State, step s = .next t → s.turn ≠ .reset →
    (t.blk.result64 ≠ s.blk.result64 ∨ t.blk.result32 ≠ s.blk.result32 →
      s.turn = .engine ∧ s.busy = true ∧ s.blk.rem = 0 ∧ t.busy = false ∧ t.blk.done = true ∧
        t.blk.result64 = mix s.blk.acc) ∧
    (t.blk.result32 ≠ s.blk.result32 → s.blk.opk = .h32 ∧ t.blk.result32 = (fold32 (mix s.blk.acc)).setWidth 64) ∧
    (t.blk.faultAddr ≠ s.blk.faultAddr →
      s.turn = .engine ∧ s.busy = true ∧ s.blk.rem ≠ 0 ∧ t.blk.err = true ∧ t.blk.errcode = 3 ∧ t.blk.faultAddr = s.blk.ptr)

/-- BUSY falls only by completion, by a bus error or by reset, and rises only by an accepted HASH64 or HASH32
(R22, R125, R191, R195). -/
def Obligations.BusyChangesOnlyByRule : Prop :=
  ∀ s t : State, step s = .next t →
    (s.busy = true → t.busy = false →
      s.turn = .reset ∨
        (s.turn = .engine ∧ ((s.blk.rem = 0 ∧ t.blk.done = true) ∨ (s.blk.rem ≠ 0 ∧ t.blk.err = true ∧ t.blk.errcode = 3)))) ∧
    (s.busy = false → t.busy = true →
      s.turn = .host ∧ ∃ (w : Word) (ops : List HostOp), s.host = .write 64 0x08 w :: ops ∧ (w = 1 ∨ w = 2))

/-! ## Fair runs -/

/-- In a fair run over a memory that answers, every operation ends (R125, R200): BUSY stays 1 up to one step, and that step is
the engine's, which completes the operation or stops it with BUS_ERROR, or reset. -/
def Obligations.FairOperationsEnd : Prop :=
  ∀ (r : Nat → State) (n : Nat), FairRun r → (r n).busy = true → (r n).plat.memAnswers = true →
    ∃ m ≥ n, (∀ j, n ≤ j → j ≤ m → (r j).busy = true) ∧ (r (m + 1)).busy = false ∧
      ((r m).turn = .reset ∨ ((r m).turn = .engine ∧
        ((r (m + 1)).blk.done = true ∨ ((r (m + 1)).blk.err = true ∧ (r (m + 1)).blk.errcode = 3))))

/-- In a fair run over a memory that answers, whose host goes on, every `wait` ends (R92, R200), with the first STATUS it reads
that shows BUSY = 0. That the host goes on is DEDUCED (log entry 4), the queue is the model's form (log entry 3). -/
def Obligations.FairWaitsEnd : Prop :=
  ∀ (r : Nat → State) (n : Nat) (rest : List HostOp), FairRun r → HostGoesOn r → (r n).plat.memAnswers = true →
    (r n).host = .wait :: rest →
    ∃ m ≥ n, (∀ j, n ≤ j → j ≤ m → (r j).host = .wait :: rest) ∧ (r m).turn = .host ∧ (r m).busy = false ∧
      (r (m + 1)).host = rest ∧ (r (m + 1)).reads = (r m).reads ++ [(r m).blk.statusWord] ∧
      (r m).blk.statusWord.getLsbD 0 = false
end

