-- ==== Sys2Proof/Laws/Memory.lean ====
section
/-! SUPPORT. The laws of buffer memory: read after write, a write leaves every other byte alone, and every operation keeps the
canonical form. -/

namespace Sys2Proof.Machine

theorem Memory.read_write_other (m : Memory) (a x : Nat) (b : Byte) (h : x ≠ a) :
    (m.write a b).read x = m.read x := by
  have h' := Ne.symm h
  induction m with
  | nil =>
    unfold Memory.write
    split <;> simp [Memory.read, h']
  | cons c m ih =>
    obtain ⟨k, c⟩ := c
    unfold Memory.write
    split_ifs <;> simp_all [Memory.read]

theorem Memory.read_above (m : Memory) (x : Nat) (h : ∀ c ∈ m, x < c.1) : m.read x = unlistedByte := by
  induction m with
  | nil => rfl
  | cons c m ih =>
    obtain ⟨k, c⟩ := c
    have hk : x < k := h (k, c) (by simp)
    simp [Memory.read, Nat.ne_of_gt hk, ih fun d hd => h d (by simp [hd])]

theorem Memory.wf_cons (k : Nat) (b : Byte) (m : Memory) :
    Memory.wf ((k, b) :: m) = true ↔
      k < 2 ^ 64 ∧ b ≠ unlistedByte ∧ (∀ c ∈ m, k < c.1) ∧ Memory.wf m = true := by
  simp [Memory.wf, and_assoc]

theorem Memory.read_write_same (m : Memory) (a : Nat) (b : Byte) (h : m.wf = true) :
    (m.write a b).read a = b := by
  induction m with
  | nil =>
    unfold Memory.write
    split <;> simp_all [Memory.read]
  | cons c m ih =>
    obtain ⟨k, c⟩ := c
    obtain ⟨-, -, hrise, hm⟩ := (Memory.wf_cons k c m).1 h
    unfold Memory.write
    split_ifs with h1 h2 h3 h4
    · have : Memory.read ((k, c) :: m) a = unlistedByte := by
        refine Memory.read_above _ _ fun d hd => ?_
        rcases List.mem_cons.1 hd with rfl | hd
        · exact h1
        · exact Nat.lt_trans h1 (hrise d hd)
      rw [this, h2]
    · simp [Memory.read]
    · rw [Memory.read_above m a fun d hd => h3 ▸ hrise d hd, h4]
    · simp [Memory.read]
    · simp [Memory.read, Ne.symm h3, ih hm]

theorem Memory.write_mem (m : Memory) (a : Nat) (b : Byte) (d : Host.Cell) (h : d ∈ m.write a b) :
    d ∈ m ∨ d = (a, b) := by
  induction m with
  | nil =>
    unfold Memory.write at h
    split at h <;> simp_all
  | cons c m ih =>
    obtain ⟨k, c⟩ := c
    unfold Memory.write at h
    split_ifs at h <;> simp_all <;> tauto

/-- A write keeps the canonical form. -/
theorem Memory.write_wf (m : Memory) (a : Nat) (b : Byte) (h : m.wf = true) (ha : a < 2 ^ 64) :
    (m.write a b).wf = true := by
  induction m with
  | nil =>
    unfold Memory.write
    split
    · rfl
    · simp_all [Memory.wf]
  | cons c m ih =>
    obtain ⟨k, c⟩ := c
    obtain ⟨hk, hc, hrise, hm⟩ := (Memory.wf_cons k c m).1 h
    unfold Memory.write
    split_ifs with h1 h2 h3 h4
    · exact h
    · refine (Memory.wf_cons _ _ _).2 ⟨ha, h2, fun d hd => ?_, h⟩
      rcases List.mem_cons.1 hd with rfl | hd
      · exact h1
      · exact Nat.lt_trans h1 (hrise d hd)
    · exact hm
    · exact (Memory.wf_cons _ _ _).2 ⟨ha, h4, fun d hd => h3 ▸ hrise d hd, hm⟩
    · refine (Memory.wf_cons _ _ _).2 ⟨hk, hc, fun d hd => ?_, ih hm⟩
      rcases Memory.write_mem m a b d hd with hd | rfl
      · exact hrise d hd
      · show k < a
        omega

theorem Memory.writeAll_wf (m : Memory) (cs : List Host.Cell) (h : m.wf = true) (hc : ∀ c ∈ cs, c.1 < 2 ^ 64) :
    (m.writeAll cs).wf = true := by
  induction cs generalizing m with
  | nil => exact h
  | cons c cs ih =>
    exact ih _ (Memory.write_wf m c.1 c.2 h (hc c (by simp))) fun d hd => hc d (by simp [hd])

/-- Each byte after several writes: the last one to its address, else what it was. -/
theorem Memory.read_writeAll (m : Memory) (cs : List Host.Cell) (x : Nat) (h : m.wf = true) (hc : ∀ c ∈ cs, c.1 < 2 ^ 64) :
    (m.writeAll cs).read x = cs.foldl (fun v c => if c.1 = x then c.2 else v) (m.read x) := by
  induction cs generalizing m with
  | nil => rfl
  | cons c cs ih =>
    rw [Memory.writeAll, ih _ (Memory.write_wf m c.1 c.2 h (hc c (by simp))) fun d hd => hc d (by simp [hd]), List.foldl_cons]
    congr 1
    split_ifs with e
    · rw [← e]
      exact Memory.read_write_same m c.1 c.2 h
    · exact Memory.read_write_other m c.1 x c.2 (Ne.symm e)

theorem Memory.read_writeAll_other (m : Memory) (cs : List Host.Cell) (x : Nat) (h : ∀ c ∈ cs, c.1 ≠ x) :
    (m.writeAll cs).read x = m.read x := by
  induction cs generalizing m with
  | nil => rfl
  | cons c cs ih =>
    rw [Memory.writeAll, ih _ fun d hd => h d (by simp [hd]),
      Memory.read_write_other _ _ _ _ (Ne.symm (h c (by simp)))]

end Sys2Proof.Machine
end

