-- ==== Sys2Proof/Laws/State.lean ====
section
/-! SUPPORT. One lemma per field of Block and State per named update, each true by rfl, so that no proof unfolds a record update. -/

namespace Sys2Proof.Machine

@[simp] theorem Block.accept_opk (b : Block) (op : BitVec 8) : (b.accept op).opk = b.opk := rfl
@[simp] theorem Block.accept_acc (b : Block) (op : BitVec 8) : (b.accept op).acc = b.acc := rfl
@[simp] theorem Block.accept_ptr (b : Block) (op : BitVec 8) : (b.accept op).ptr = b.ptr := rfl
@[simp] theorem Block.accept_rem (b : Block) (op : BitVec 8) : (b.accept op).rem = b.rem := rfl
@[simp] theorem Block.accept_done (b : Block) (op : BitVec 8) : (b.accept op).done = false := rfl
@[simp] theorem Block.accept_err (b : Block) (op : BitVec 8) : (b.accept op).err = false := rfl
@[simp] theorem Block.accept_ovr (b : Block) (op : BitVec 8) : (b.accept op).ovr = false := rfl
@[simp] theorem Block.accept_errcode (b : Block) (op : BitVec 8) : (b.accept op).errcode = 0 := rfl
@[simp] theorem Block.accept_lastop (b : Block) (op : BitVec 8) : (b.accept op).lastop = op := rfl
@[simp] theorem Block.accept_doneIe (b : Block) (op : BitVec 8) : (b.accept op).doneIe = b.doneIe := rfl
@[simp] theorem Block.accept_errIe (b : Block) (op : BitVec 8) : (b.accept op).errIe = b.errIe := rfl
@[simp] theorem Block.accept_seed (b : Block) (op : BitVec 8) : (b.accept op).seed = b.seed := rfl
@[simp] theorem Block.accept_addr (b : Block) (op : BitVec 8) : (b.accept op).addr = b.addr := rfl
@[simp] theorem Block.accept_len (b : Block) (op : BitVec 8) : (b.accept op).len = b.len := rfl
@[simp] theorem Block.accept_result64 (b : Block) (op : BitVec 8) : (b.accept op).result64 = b.result64 := rfl
@[simp] theorem Block.accept_result32 (b : Block) (op : BitVec 8) : (b.accept op).result32 = b.result32 := rfl
@[simp] theorem Block.accept_faultAddr (b : Block) (op : BitVec 8) : (b.accept op).faultAddr = b.faultAddr := rfl

@[simp] theorem Block.overrun_opk (b : Block) : (b.overrun).opk = b.opk := rfl
@[simp] theorem Block.overrun_acc (b : Block) : (b.overrun).acc = b.acc := rfl
@[simp] theorem Block.overrun_ptr (b : Block) : (b.overrun).ptr = b.ptr := rfl
@[simp] theorem Block.overrun_rem (b : Block) : (b.overrun).rem = b.rem := rfl
@[simp] theorem Block.overrun_done (b : Block) : (b.overrun).done = b.done := rfl
@[simp] theorem Block.overrun_err (b : Block) : (b.overrun).err = b.err := rfl
@[simp] theorem Block.overrun_ovr (b : Block) : (b.overrun).ovr = true := rfl
@[simp] theorem Block.overrun_errcode (b : Block) : (b.overrun).errcode = b.errcode := rfl
@[simp] theorem Block.overrun_lastop (b : Block) : (b.overrun).lastop = b.lastop := rfl
@[simp] theorem Block.overrun_doneIe (b : Block) : (b.overrun).doneIe = b.doneIe := rfl
@[simp] theorem Block.overrun_errIe (b : Block) : (b.overrun).errIe = b.errIe := rfl
@[simp] theorem Block.overrun_seed (b : Block) : (b.overrun).seed = b.seed := rfl
@[simp] theorem Block.overrun_addr (b : Block) : (b.overrun).addr = b.addr := rfl
@[simp] theorem Block.overrun_len (b : Block) : (b.overrun).len = b.len := rfl
@[simp] theorem Block.overrun_result64 (b : Block) : (b.overrun).result64 = b.result64 := rfl
@[simp] theorem Block.overrun_result32 (b : Block) : (b.overrun).result32 = b.result32 := rfl
@[simp] theorem Block.overrun_faultAddr (b : Block) : (b.overrun).faultAddr = b.faultAddr := rfl

@[simp] theorem Block.raise_opk (b : Block) (c : ErrCode) : (b.raise c).opk = .idle := rfl
@[simp] theorem Block.raise_acc (b : Block) (c : ErrCode) : (b.raise c).acc = b.acc := rfl
@[simp] theorem Block.raise_ptr (b : Block) (c : ErrCode) : (b.raise c).ptr = b.ptr := rfl
@[simp] theorem Block.raise_rem (b : Block) (c : ErrCode) : (b.raise c).rem = b.rem := rfl
@[simp] theorem Block.raise_done (b : Block) (c : ErrCode) : (b.raise c).done = b.done := rfl
@[simp] theorem Block.raise_err (b : Block) (c : ErrCode) : (b.raise c).err = true := rfl
@[simp] theorem Block.raise_ovr (b : Block) (c : ErrCode) : (b.raise c).ovr = b.ovr := rfl
@[simp] theorem Block.raise_errcode (b : Block) (c : ErrCode) : (b.raise c).errcode = c.bits := rfl
@[simp] theorem Block.raise_lastop (b : Block) (c : ErrCode) : (b.raise c).lastop = b.lastop := rfl
@[simp] theorem Block.raise_doneIe (b : Block) (c : ErrCode) : (b.raise c).doneIe = b.doneIe := rfl
@[simp] theorem Block.raise_errIe (b : Block) (c : ErrCode) : (b.raise c).errIe = b.errIe := rfl
@[simp] theorem Block.raise_seed (b : Block) (c : ErrCode) : (b.raise c).seed = b.seed := rfl
@[simp] theorem Block.raise_addr (b : Block) (c : ErrCode) : (b.raise c).addr = b.addr := rfl
@[simp] theorem Block.raise_len (b : Block) (c : ErrCode) : (b.raise c).len = b.len := rfl
@[simp] theorem Block.raise_result64 (b : Block) (c : ErrCode) : (b.raise c).result64 = b.result64 := rfl
@[simp] theorem Block.raise_result32 (b : Block) (c : ErrCode) : (b.raise c).result32 = b.result32 := rfl
@[simp] theorem Block.raise_faultAddr (b : Block) (c : ErrCode) : (b.raise c).faultAddr = if c = .busError then b.ptr else b.faultAddr := rfl

@[simp] theorem Block.start_opk (b : Block) (k : OpKind) : (b.start k).opk = k := rfl
@[simp] theorem Block.start_acc (b : Block) (k : OpKind) : (b.start k).acc = initAcc b.seed b.len := rfl
@[simp] theorem Block.start_ptr (b : Block) (k : OpKind) : (b.start k).ptr = b.addr := rfl
@[simp] theorem Block.start_rem (b : Block) (k : OpKind) : (b.start k).rem = b.len := rfl
@[simp] theorem Block.start_done (b : Block) (k : OpKind) : (b.start k).done = b.done := rfl
@[simp] theorem Block.start_err (b : Block) (k : OpKind) : (b.start k).err = b.err := rfl
@[simp] theorem Block.start_ovr (b : Block) (k : OpKind) : (b.start k).ovr = b.ovr := rfl
@[simp] theorem Block.start_errcode (b : Block) (k : OpKind) : (b.start k).errcode = b.errcode := rfl
@[simp] theorem Block.start_lastop (b : Block) (k : OpKind) : (b.start k).lastop = b.lastop := rfl
@[simp] theorem Block.start_doneIe (b : Block) (k : OpKind) : (b.start k).doneIe = b.doneIe := rfl
@[simp] theorem Block.start_errIe (b : Block) (k : OpKind) : (b.start k).errIe = b.errIe := rfl
@[simp] theorem Block.start_seed (b : Block) (k : OpKind) : (b.start k).seed = b.seed := rfl
@[simp] theorem Block.start_addr (b : Block) (k : OpKind) : (b.start k).addr = b.addr := rfl
@[simp] theorem Block.start_len (b : Block) (k : OpKind) : (b.start k).len = b.len := rfl
@[simp] theorem Block.start_result64 (b : Block) (k : OpKind) : (b.start k).result64 = b.result64 := rfl
@[simp] theorem Block.start_result32 (b : Block) (k : OpKind) : (b.start k).result32 = b.result32 := rfl
@[simp] theorem Block.start_faultAddr (b : Block) (k : OpKind) : (b.start k).faultAddr = b.faultAddr := rfl

@[simp] theorem Block.compress_opk (b : Block) (n : Nat) (v : Word) : (b.compress n v).opk = b.opk := rfl
@[simp] theorem Block.compress_acc (b : Block) (n : Nat) (v : Word) : (b.compress n v).acc = combine b.acc v := rfl
@[simp] theorem Block.compress_ptr (b : Block) (n : Nat) (v : Word) : (b.compress n v).ptr = b.ptr + BitVec.ofNat 64 n := rfl
@[simp] theorem Block.compress_rem (b : Block) (n : Nat) (v : Word) : (b.compress n v).rem = b.rem - BitVec.ofNat 64 n := rfl
@[simp] theorem Block.compress_done (b : Block) (n : Nat) (v : Word) : (b.compress n v).done = b.done := rfl
@[simp] theorem Block.compress_err (b : Block) (n : Nat) (v : Word) : (b.compress n v).err = b.err := rfl
@[simp] theorem Block.compress_ovr (b : Block) (n : Nat) (v : Word) : (b.compress n v).ovr = b.ovr := rfl
@[simp] theorem Block.compress_errcode (b : Block) (n : Nat) (v : Word) : (b.compress n v).errcode = b.errcode := rfl
@[simp] theorem Block.compress_lastop (b : Block) (n : Nat) (v : Word) : (b.compress n v).lastop = b.lastop := rfl
@[simp] theorem Block.compress_doneIe (b : Block) (n : Nat) (v : Word) : (b.compress n v).doneIe = b.doneIe := rfl
@[simp] theorem Block.compress_errIe (b : Block) (n : Nat) (v : Word) : (b.compress n v).errIe = b.errIe := rfl
@[simp] theorem Block.compress_seed (b : Block) (n : Nat) (v : Word) : (b.compress n v).seed = b.seed := rfl
@[simp] theorem Block.compress_addr (b : Block) (n : Nat) (v : Word) : (b.compress n v).addr = b.addr := rfl
@[simp] theorem Block.compress_len (b : Block) (n : Nat) (v : Word) : (b.compress n v).len = b.len := rfl
@[simp] theorem Block.compress_result64 (b : Block) (n : Nat) (v : Word) : (b.compress n v).result64 = b.result64 := rfl
@[simp] theorem Block.compress_result32 (b : Block) (n : Nat) (v : Word) : (b.compress n v).result32 = b.result32 := rfl
@[simp] theorem Block.compress_faultAddr (b : Block) (n : Nat) (v : Word) : (b.compress n v).faultAddr = b.faultAddr := rfl

@[simp] theorem Block.finish_opk (b : Block) : (b.finish).opk = .idle := rfl
@[simp] theorem Block.finish_acc (b : Block) : (b.finish).acc = b.acc := rfl
@[simp] theorem Block.finish_ptr (b : Block) : (b.finish).ptr = b.ptr := rfl
@[simp] theorem Block.finish_rem (b : Block) : (b.finish).rem = b.rem := rfl
@[simp] theorem Block.finish_done (b : Block) : (b.finish).done = true := rfl
@[simp] theorem Block.finish_err (b : Block) : (b.finish).err = b.err := rfl
@[simp] theorem Block.finish_ovr (b : Block) : (b.finish).ovr = b.ovr := rfl
@[simp] theorem Block.finish_errcode (b : Block) : (b.finish).errcode = b.errcode := rfl
@[simp] theorem Block.finish_lastop (b : Block) : (b.finish).lastop = b.lastop := rfl
@[simp] theorem Block.finish_doneIe (b : Block) : (b.finish).doneIe = b.doneIe := rfl
@[simp] theorem Block.finish_errIe (b : Block) : (b.finish).errIe = b.errIe := rfl
@[simp] theorem Block.finish_seed (b : Block) : (b.finish).seed = b.seed := rfl
@[simp] theorem Block.finish_addr (b : Block) : (b.finish).addr = b.addr := rfl
@[simp] theorem Block.finish_len (b : Block) : (b.finish).len = b.len := rfl
@[simp] theorem Block.finish_result64 (b : Block) : (b.finish).result64 = mix b.acc := rfl
@[simp] theorem Block.finish_result32 (b : Block) : (b.finish).result32 = if b.opk = .h32 then (fold32 (mix b.acc)).setWidth 64 else b.result32 := rfl
@[simp] theorem Block.finish_faultAddr (b : Block) : (b.finish).faultAddr = b.faultAddr := rfl

@[simp] theorem Block.writeCtrl_opk (b : Block) (w : Word) : (b.writeCtrl w).opk = b.opk := rfl
@[simp] theorem Block.writeCtrl_acc (b : Block) (w : Word) : (b.writeCtrl w).acc = b.acc := rfl
@[simp] theorem Block.writeCtrl_ptr (b : Block) (w : Word) : (b.writeCtrl w).ptr = b.ptr := rfl
@[simp] theorem Block.writeCtrl_rem (b : Block) (w : Word) : (b.writeCtrl w).rem = b.rem := rfl
@[simp] theorem Block.writeCtrl_done (b : Block) (w : Word) : (b.writeCtrl w).done = b.done := rfl
@[simp] theorem Block.writeCtrl_err (b : Block) (w : Word) : (b.writeCtrl w).err = b.err := rfl
@[simp] theorem Block.writeCtrl_ovr (b : Block) (w : Word) : (b.writeCtrl w).ovr = b.ovr := rfl
@[simp] theorem Block.writeCtrl_errcode (b : Block) (w : Word) : (b.writeCtrl w).errcode = b.errcode := rfl
@[simp] theorem Block.writeCtrl_lastop (b : Block) (w : Word) : (b.writeCtrl w).lastop = b.lastop := rfl
@[simp] theorem Block.writeCtrl_doneIe (b : Block) (w : Word) : (b.writeCtrl w).doneIe = w.getLsbD 0 := rfl
@[simp] theorem Block.writeCtrl_errIe (b : Block) (w : Word) : (b.writeCtrl w).errIe = w.getLsbD 1 := rfl
@[simp] theorem Block.writeCtrl_seed (b : Block) (w : Word) : (b.writeCtrl w).seed = b.seed := rfl
@[simp] theorem Block.writeCtrl_addr (b : Block) (w : Word) : (b.writeCtrl w).addr = b.addr := rfl
@[simp] theorem Block.writeCtrl_len (b : Block) (w : Word) : (b.writeCtrl w).len = b.len := rfl
@[simp] theorem Block.writeCtrl_result64 (b : Block) (w : Word) : (b.writeCtrl w).result64 = b.result64 := rfl
@[simp] theorem Block.writeCtrl_result32 (b : Block) (w : Word) : (b.writeCtrl w).result32 = b.result32 := rfl
@[simp] theorem Block.writeCtrl_faultAddr (b : Block) (w : Word) : (b.writeCtrl w).faultAddr = b.faultAddr := rfl

@[simp] theorem Block.writeSeed_opk (b : Block) (w : Word) : (b.writeSeed w).opk = b.opk := rfl
@[simp] theorem Block.writeSeed_acc (b : Block) (w : Word) : (b.writeSeed w).acc = b.acc := rfl
@[simp] theorem Block.writeSeed_ptr (b : Block) (w : Word) : (b.writeSeed w).ptr = b.ptr := rfl
@[simp] theorem Block.writeSeed_rem (b : Block) (w : Word) : (b.writeSeed w).rem = b.rem := rfl
@[simp] theorem Block.writeSeed_done (b : Block) (w : Word) : (b.writeSeed w).done = b.done := rfl
@[simp] theorem Block.writeSeed_err (b : Block) (w : Word) : (b.writeSeed w).err = b.err := rfl
@[simp] theorem Block.writeSeed_ovr (b : Block) (w : Word) : (b.writeSeed w).ovr = b.ovr := rfl
@[simp] theorem Block.writeSeed_errcode (b : Block) (w : Word) : (b.writeSeed w).errcode = b.errcode := rfl
@[simp] theorem Block.writeSeed_lastop (b : Block) (w : Word) : (b.writeSeed w).lastop = b.lastop := rfl
@[simp] theorem Block.writeSeed_doneIe (b : Block) (w : Word) : (b.writeSeed w).doneIe = b.doneIe := rfl
@[simp] theorem Block.writeSeed_errIe (b : Block) (w : Word) : (b.writeSeed w).errIe = b.errIe := rfl
@[simp] theorem Block.writeSeed_seed (b : Block) (w : Word) : (b.writeSeed w).seed = w := rfl
@[simp] theorem Block.writeSeed_addr (b : Block) (w : Word) : (b.writeSeed w).addr = b.addr := rfl
@[simp] theorem Block.writeSeed_len (b : Block) (w : Word) : (b.writeSeed w).len = b.len := rfl
@[simp] theorem Block.writeSeed_result64 (b : Block) (w : Word) : (b.writeSeed w).result64 = b.result64 := rfl
@[simp] theorem Block.writeSeed_result32 (b : Block) (w : Word) : (b.writeSeed w).result32 = b.result32 := rfl
@[simp] theorem Block.writeSeed_faultAddr (b : Block) (w : Word) : (b.writeSeed w).faultAddr = b.faultAddr := rfl

@[simp] theorem Block.writeAddr_opk (b : Block) (w : Word) : (b.writeAddr w).opk = b.opk := rfl
@[simp] theorem Block.writeAddr_acc (b : Block) (w : Word) : (b.writeAddr w).acc = b.acc := rfl
@[simp] theorem Block.writeAddr_ptr (b : Block) (w : Word) : (b.writeAddr w).ptr = b.ptr := rfl
@[simp] theorem Block.writeAddr_rem (b : Block) (w : Word) : (b.writeAddr w).rem = b.rem := rfl
@[simp] theorem Block.writeAddr_done (b : Block) (w : Word) : (b.writeAddr w).done = b.done := rfl
@[simp] theorem Block.writeAddr_err (b : Block) (w : Word) : (b.writeAddr w).err = b.err := rfl
@[simp] theorem Block.writeAddr_ovr (b : Block) (w : Word) : (b.writeAddr w).ovr = b.ovr := rfl
@[simp] theorem Block.writeAddr_errcode (b : Block) (w : Word) : (b.writeAddr w).errcode = b.errcode := rfl
@[simp] theorem Block.writeAddr_lastop (b : Block) (w : Word) : (b.writeAddr w).lastop = b.lastop := rfl
@[simp] theorem Block.writeAddr_doneIe (b : Block) (w : Word) : (b.writeAddr w).doneIe = b.doneIe := rfl
@[simp] theorem Block.writeAddr_errIe (b : Block) (w : Word) : (b.writeAddr w).errIe = b.errIe := rfl
@[simp] theorem Block.writeAddr_seed (b : Block) (w : Word) : (b.writeAddr w).seed = b.seed := rfl
@[simp] theorem Block.writeAddr_addr (b : Block) (w : Word) : (b.writeAddr w).addr = w := rfl
@[simp] theorem Block.writeAddr_len (b : Block) (w : Word) : (b.writeAddr w).len = b.len := rfl
@[simp] theorem Block.writeAddr_result64 (b : Block) (w : Word) : (b.writeAddr w).result64 = b.result64 := rfl
@[simp] theorem Block.writeAddr_result32 (b : Block) (w : Word) : (b.writeAddr w).result32 = b.result32 := rfl
@[simp] theorem Block.writeAddr_faultAddr (b : Block) (w : Word) : (b.writeAddr w).faultAddr = b.faultAddr := rfl

@[simp] theorem Block.writeLen_opk (b : Block) (w : Word) : (b.writeLen w).opk = b.opk := rfl
@[simp] theorem Block.writeLen_acc (b : Block) (w : Word) : (b.writeLen w).acc = b.acc := rfl
@[simp] theorem Block.writeLen_ptr (b : Block) (w : Word) : (b.writeLen w).ptr = b.ptr := rfl
@[simp] theorem Block.writeLen_rem (b : Block) (w : Word) : (b.writeLen w).rem = b.rem := rfl
@[simp] theorem Block.writeLen_done (b : Block) (w : Word) : (b.writeLen w).done = b.done := rfl
@[simp] theorem Block.writeLen_err (b : Block) (w : Word) : (b.writeLen w).err = b.err := rfl
@[simp] theorem Block.writeLen_ovr (b : Block) (w : Word) : (b.writeLen w).ovr = b.ovr := rfl
@[simp] theorem Block.writeLen_errcode (b : Block) (w : Word) : (b.writeLen w).errcode = b.errcode := rfl
@[simp] theorem Block.writeLen_lastop (b : Block) (w : Word) : (b.writeLen w).lastop = b.lastop := rfl
@[simp] theorem Block.writeLen_doneIe (b : Block) (w : Word) : (b.writeLen w).doneIe = b.doneIe := rfl
@[simp] theorem Block.writeLen_errIe (b : Block) (w : Word) : (b.writeLen w).errIe = b.errIe := rfl
@[simp] theorem Block.writeLen_seed (b : Block) (w : Word) : (b.writeLen w).seed = b.seed := rfl
@[simp] theorem Block.writeLen_addr (b : Block) (w : Word) : (b.writeLen w).addr = b.addr := rfl
@[simp] theorem Block.writeLen_len (b : Block) (w : Word) : (b.writeLen w).len = w := rfl
@[simp] theorem Block.writeLen_result64 (b : Block) (w : Word) : (b.writeLen w).result64 = b.result64 := rfl
@[simp] theorem Block.writeLen_result32 (b : Block) (w : Word) : (b.writeLen w).result32 = b.result32 := rfl
@[simp] theorem Block.writeLen_faultAddr (b : Block) (w : Word) : (b.writeLen w).faultAddr = b.faultAddr := rfl

@[simp] theorem State.setBlk_blk (s : State) (b : Block) : (s.setBlk b).blk = b := rfl
@[simp] theorem State.setBlk_latch (s : State) (b : Block) : (s.setBlk b).latch = s.latch := rfl
@[simp] theorem State.setBlk_plat (s : State) (b : Block) : (s.setBlk b).plat = s.plat := rfl
@[simp] theorem State.setBlk_mem (s : State) (b : Block) : (s.setBlk b).mem = s.mem := rfl
@[simp] theorem State.setBlk_stores (s : State) (b : Block) : (s.setBlk b).stores = s.stores := rfl
@[simp] theorem State.setBlk_host (s : State) (b : Block) : (s.setBlk b).host = s.host := rfl
@[simp] theorem State.setBlk_reads (s : State) (b : Block) : (s.setBlk b).reads = s.reads := rfl
@[simp] theorem State.setBlk_turns (s : State) (b : Block) : (s.setBlk b).turns = s.turns := rfl
@[simp] theorem State.setBlk_tick (s : State) (b : Block) : (s.setBlk b).tick = s.tick := rfl

@[simp] theorem State.setLatch_blk (s : State) (l : Latch) : (s.setLatch l).blk = s.blk := rfl
@[simp] theorem State.setLatch_latch (s : State) (l : Latch) : (s.setLatch l).latch = l := rfl
@[simp] theorem State.setLatch_plat (s : State) (l : Latch) : (s.setLatch l).plat = s.plat := rfl
@[simp] theorem State.setLatch_mem (s : State) (l : Latch) : (s.setLatch l).mem = s.mem := rfl
@[simp] theorem State.setLatch_stores (s : State) (l : Latch) : (s.setLatch l).stores = s.stores := rfl
@[simp] theorem State.setLatch_host (s : State) (l : Latch) : (s.setLatch l).host = s.host := rfl
@[simp] theorem State.setLatch_reads (s : State) (l : Latch) : (s.setLatch l).reads = s.reads := rfl
@[simp] theorem State.setLatch_turns (s : State) (l : Latch) : (s.setLatch l).turns = s.turns := rfl
@[simp] theorem State.setLatch_tick (s : State) (l : Latch) : (s.setLatch l).tick = s.tick := rfl

@[simp] theorem State.setMem_blk (s : State) (m : Memory) : (s.setMem m).blk = s.blk := rfl
@[simp] theorem State.setMem_latch (s : State) (m : Memory) : (s.setMem m).latch = s.latch := rfl
@[simp] theorem State.setMem_plat (s : State) (m : Memory) : (s.setMem m).plat = s.plat := rfl
@[simp] theorem State.setMem_mem (s : State) (m : Memory) : (s.setMem m).mem = m := rfl
@[simp] theorem State.setMem_stores (s : State) (m : Memory) : (s.setMem m).stores = s.stores := rfl
@[simp] theorem State.setMem_host (s : State) (m : Memory) : (s.setMem m).host = s.host := rfl
@[simp] theorem State.setMem_reads (s : State) (m : Memory) : (s.setMem m).reads = s.reads := rfl
@[simp] theorem State.setMem_turns (s : State) (m : Memory) : (s.setMem m).turns = s.turns := rfl
@[simp] theorem State.setMem_tick (s : State) (m : Memory) : (s.setMem m).tick = s.tick := rfl

@[simp] theorem State.setStores_blk (s : State) (cs : List Host.Cell) : (s.setStores cs).blk = s.blk := rfl
@[simp] theorem State.setStores_latch (s : State) (cs : List Host.Cell) : (s.setStores cs).latch = s.latch := rfl
@[simp] theorem State.setStores_plat (s : State) (cs : List Host.Cell) : (s.setStores cs).plat = s.plat := rfl
@[simp] theorem State.setStores_mem (s : State) (cs : List Host.Cell) : (s.setStores cs).mem = s.mem := rfl
@[simp] theorem State.setStores_stores (s : State) (cs : List Host.Cell) : (s.setStores cs).stores = cs := rfl
@[simp] theorem State.setStores_host (s : State) (cs : List Host.Cell) : (s.setStores cs).host = s.host := rfl
@[simp] theorem State.setStores_reads (s : State) (cs : List Host.Cell) : (s.setStores cs).reads = s.reads := rfl
@[simp] theorem State.setStores_turns (s : State) (cs : List Host.Cell) : (s.setStores cs).turns = s.turns := rfl
@[simp] theorem State.setStores_tick (s : State) (cs : List Host.Cell) : (s.setStores cs).tick = s.tick := rfl

@[simp] theorem State.setHost_blk (s : State) (ops : List HostOp) : (s.setHost ops).blk = s.blk := rfl
@[simp] theorem State.setHost_latch (s : State) (ops : List HostOp) : (s.setHost ops).latch = s.latch := rfl
@[simp] theorem State.setHost_plat (s : State) (ops : List HostOp) : (s.setHost ops).plat = s.plat := rfl
@[simp] theorem State.setHost_mem (s : State) (ops : List HostOp) : (s.setHost ops).mem = s.mem := rfl
@[simp] theorem State.setHost_stores (s : State) (ops : List HostOp) : (s.setHost ops).stores = s.stores := rfl
@[simp] theorem State.setHost_host (s : State) (ops : List HostOp) : (s.setHost ops).host = ops := rfl
@[simp] theorem State.setHost_reads (s : State) (ops : List HostOp) : (s.setHost ops).reads = s.reads := rfl
@[simp] theorem State.setHost_turns (s : State) (ops : List HostOp) : (s.setHost ops).turns = s.turns := rfl
@[simp] theorem State.setHost_tick (s : State) (ops : List HostOp) : (s.setHost ops).tick = s.tick := rfl

@[simp] theorem State.pushRead_blk (s : State) (v : Word) : (s.pushRead v).blk = s.blk := rfl
@[simp] theorem State.pushRead_latch (s : State) (v : Word) : (s.pushRead v).latch = s.latch := rfl
@[simp] theorem State.pushRead_plat (s : State) (v : Word) : (s.pushRead v).plat = s.plat := rfl
@[simp] theorem State.pushRead_mem (s : State) (v : Word) : (s.pushRead v).mem = s.mem := rfl
@[simp] theorem State.pushRead_stores (s : State) (v : Word) : (s.pushRead v).stores = s.stores := rfl
@[simp] theorem State.pushRead_host (s : State) (v : Word) : (s.pushRead v).host = s.host := rfl
@[simp] theorem State.pushRead_reads (s : State) (v : Word) : (s.pushRead v).reads = s.reads ++ [v] := rfl
@[simp] theorem State.pushRead_turns (s : State) (v : Word) : (s.pushRead v).turns = s.turns := rfl
@[simp] theorem State.pushRead_tick (s : State) (v : Word) : (s.pushRead v).tick = s.tick := rfl

@[simp] theorem State.raise_blk (s : State) (c : ErrCode) : (s.raise c).blk = s.blk.raise c := rfl
@[simp] theorem State.raise_latch (s : State) (c : ErrCode) : (s.raise c).latch = s.latch := rfl
@[simp] theorem State.raise_plat (s : State) (c : ErrCode) : (s.raise c).plat = s.plat := rfl
@[simp] theorem State.raise_mem (s : State) (c : ErrCode) : (s.raise c).mem = s.mem := rfl
@[simp] theorem State.raise_stores (s : State) (c : ErrCode) : (s.raise c).stores = s.stores := rfl
@[simp] theorem State.raise_host (s : State) (c : ErrCode) : (s.raise c).host = s.host := rfl
@[simp] theorem State.raise_reads (s : State) (c : ErrCode) : (s.raise c).reads = s.reads := rfl
@[simp] theorem State.raise_turns (s : State) (c : ErrCode) : (s.raise c).turns = s.turns := rfl
@[simp] theorem State.raise_tick (s : State) (c : ErrCode) : (s.raise c).tick = s.tick := rfl

@[simp] theorem State.accept_blk (s : State) (op : BitVec 8) : (s.accept op).blk = s.blk.accept op := rfl
@[simp] theorem State.accept_latch (s : State) (op : BitVec 8) : (s.accept op).latch = s.latch := rfl
@[simp] theorem State.accept_plat (s : State) (op : BitVec 8) : (s.accept op).plat = s.plat := rfl
@[simp] theorem State.accept_mem (s : State) (op : BitVec 8) : (s.accept op).mem = s.mem := rfl
@[simp] theorem State.accept_stores (s : State) (op : BitVec 8) : (s.accept op).stores = s.stores := rfl
@[simp] theorem State.accept_host (s : State) (op : BitVec 8) : (s.accept op).host = s.host := rfl
@[simp] theorem State.accept_reads (s : State) (op : BitVec 8) : (s.accept op).reads = s.reads := rfl
@[simp] theorem State.accept_turns (s : State) (op : BitVec 8) : (s.accept op).turns = s.turns := rfl
@[simp] theorem State.accept_tick (s : State) (op : BitVec 8) : (s.accept op).tick = s.tick := rfl

@[simp] theorem State.overrun_blk (s : State) : (s.overrun).blk = s.blk.overrun := rfl
@[simp] theorem State.overrun_latch (s : State) : (s.overrun).latch = s.latch := rfl
@[simp] theorem State.overrun_plat (s : State) : (s.overrun).plat = s.plat := rfl
@[simp] theorem State.overrun_mem (s : State) : (s.overrun).mem = s.mem := rfl
@[simp] theorem State.overrun_stores (s : State) : (s.overrun).stores = s.stores := rfl
@[simp] theorem State.overrun_host (s : State) : (s.overrun).host = s.host := rfl
@[simp] theorem State.overrun_reads (s : State) : (s.overrun).reads = s.reads := rfl
@[simp] theorem State.overrun_turns (s : State) : (s.overrun).turns = s.turns := rfl
@[simp] theorem State.overrun_tick (s : State) : (s.overrun).tick = s.tick := rfl

@[simp] theorem State.doReset_blk (s : State) : (s.doReset).blk = Block.reset := rfl
@[simp] theorem State.doReset_latch (s : State) : (s.doReset).latch = Latch.reset := rfl
@[simp] theorem State.doReset_plat (s : State) : (s.doReset).plat = s.plat := rfl
@[simp] theorem State.doReset_mem (s : State) : (s.doReset).mem = s.mem := rfl
@[simp] theorem State.doReset_stores (s : State) : (s.doReset).stores = s.stores := rfl
@[simp] theorem State.doReset_host (s : State) : (s.doReset).host = s.host := rfl
@[simp] theorem State.doReset_reads (s : State) : (s.doReset).reads = s.reads := rfl
@[simp] theorem State.doReset_turns (s : State) : (s.doReset).turns = s.turns := rfl
@[simp] theorem State.doReset_tick (s : State) : (s.doReset).tick = s.tick := rfl

@[simp] theorem State.takeTurn_blk (s : State) : s.takeTurn.blk = s.blk := by
  unfold State.takeTurn; split <;> rfl
@[simp] theorem State.takeTurn_latch (s : State) : s.takeTurn.latch = s.latch := by
  unfold State.takeTurn; split <;> rfl
@[simp] theorem State.takeTurn_plat (s : State) : s.takeTurn.plat = s.plat := by
  unfold State.takeTurn; split <;> rfl
@[simp] theorem State.takeTurn_mem (s : State) : s.takeTurn.mem = s.mem := by
  unfold State.takeTurn; split <;> rfl
@[simp] theorem State.takeTurn_stores (s : State) : s.takeTurn.stores = s.stores := by
  unfold State.takeTurn; split <;> rfl
@[simp] theorem State.takeTurn_host (s : State) : s.takeTurn.host = s.host := by
  unfold State.takeTurn; split <;> rfl
@[simp] theorem State.takeTurn_reads (s : State) : s.takeTurn.reads = s.reads := by
  unfold State.takeTurn; split <;> rfl

@[simp] theorem State.takeTurn_turns (s : State) : s.takeTurn.turns = s.turns.tail := by
  unfold State.takeTurn; split <;> simp [*]

/-- BUSY only looks at OPK (R26). -/
theorem State.busy_eq (s : State) : s.busy = (s.blk.opk != .idle) := rfl

theorem Block.busy_eq_false (b : Block) : b.busy = false ↔ b.opk = .idle := by
  cases h : b.opk <;> simp [Block.busy, h]

end Sys2Proof.Machine
end

