-- ==== Sys2Proof/Laws/Ops.lean ====
section
/-! SUPPORT. For each shared operation, everything it can do: addresses, the block read, CMD writes, the start of an operation,
the engine's step, the memory agent's and the host's operations, and the machine's step. -/

namespace Sys2Proof.Machine

theorem byteAddress_eq (a : Word) (i : Nat) (h : a.toNat + i < 2 ^ 64) : byteAddress a i = a.toNat + i := by
  simp [byteAddress, BitVec.toNat_add]
  omega

theorem byteAddress_lt (a : Word) (i : Nat) : byteAddress a i < 2 ^ 64 := BitVec.isLt _

theorem byteAddress_add (a : Word) (n i : Nat) : byteAddress (a + BitVec.ofNat 64 n) i = byteAddress a (n + i) := by
  simp [byteAddress, BitVec.ofNat_add, BitVec.add_assoc]

theorem inRange_iff (a l : Word) (x : Nat) : inRange a l x = true ↔ a.toNat ≤ x ∧ x < a.toNat + l.toNat := by
  simp [inRange]

theorem rangeWraps_eq_false (a l : Word) : rangeWraps a l = false ↔ l = 0 ∨ a.toNat + l.toNat ≤ 2 ^ 64 := by
  simp only [rangeWraps, Bool.and_eq_false_iff, bne_eq_false_iff_eq, decide_eq_false_iff_not, Nat.not_lt]

theorem rangeWraps_eq_true (a l : Word) : rangeWraps a l = true ↔ l ≠ 0 ∧ 2 ^ 64 < a.toNat + l.toNat := by
  simp only [rangeWraps, Bool.and_eq_true, bne_iff_ne, decide_eq_true_eq]

theorem State.storePending_eq_false (s : State) (a l : Word) :
    s.storePending a l = false ↔ ∀ c ∈ s.stores, inRange a l c.1 = false := by
  simp [State.storePending]

/-- Everything the block read can answer (R62). -/
theorem State.memRead_cases (s : State) (a : Word) (n : Nat) :
    (s.blockReadable a n = true ∧ s.memRead a n = .value (le64 (s.bytesAt a n))) ∨
    (s.blockReadable a n = false ∧ s.memRead a n = .busError) := by
  unfold State.memRead
  cases s.blockReadable a n <;> simp

/-- No byte of the block is a device's (R66). -/
theorem State.blockDevice_eq_false (s : State) (a : Word) (n : Nat) :
    s.blockDevice a n = false ↔ ∀ i < n, s.plat.deviceAt (byteAddress a i) = false := by
  simp [State.blockDevice]

theorem State.command_of_busy (s : State) (op : BitVec 8) (e : State → Result) (h : s.busy = true) :
    s.command op e = .next s.overrun := by
  simp [State.command, h]

theorem State.command_of_idle (s : State) (op : BitVec 8) (e : State → Result) (h : s.busy = false) :
    s.command op e = e (s.accept op) := by
  simp [State.command, h]

/-- An accepted hash command whose range wraps (R115, R173). -/
theorem startHash_of_wraps (k : OpKind) (s : State) (h : rangeWraps s.blk.addr s.blk.len = true) :
    startHash k s = .next (s.raise .addrRange) := by
  simp [startHash, h]

/-- An accepted hash command whose buffer is not visible (R198). -/
theorem startHash_of_invisible (k : OpKind) (s : State) (h : rangeWraps s.blk.addr s.blk.len = false)
    (hp : s.storePending s.blk.addr s.blk.len = true) : startHash k s = .refused .bufferNotVisible := by
  simp [startHash, h, hp]

/-- An accepted hash command that starts its operation (R114, R143). -/
theorem startHash_of_legal (k : OpKind) (s : State) (h : rangeWraps s.blk.addr s.blk.len = false)
    (hp : s.storePending s.blk.addr s.blk.len = false) :
    startHash k s = .next ((s.setBlk (s.blk.start k)).setLatch
      { seed := s.blk.seed, addr := s.blk.addr, len := s.blk.len }) := by
  simp [startHash, h, hp]

/-- The three outcomes of an accepted hash command. -/
theorem startHash_cases (k : OpKind) (s : State) :
    (rangeWraps s.blk.addr s.blk.len = true ∧ startHash k s = .next (s.raise .addrRange)) ∨
    (rangeWraps s.blk.addr s.blk.len = false ∧ s.storePending s.blk.addr s.blk.len = true ∧
      startHash k s = .refused .bufferNotVisible) ∨
    (rangeWraps s.blk.addr s.blk.len = false ∧ s.storePending s.blk.addr s.blk.len = false ∧
      startHash k s = .next ((s.setBlk (s.blk.start k)).setLatch
        { seed := s.blk.seed, addr := s.blk.addr, len := s.blk.len })) := by
  cases h : rangeWraps s.blk.addr s.blk.len with
  | true => exact .inl ⟨rfl, startHash_of_wraps k s h⟩
  | false =>
    cases hp : s.storePending s.blk.addr s.blk.len with
    | true => exact .inr (.inl ⟨rfl, rfl, startHash_of_invisible k s h hp⟩)
    | false => exact .inr (.inr ⟨rfl, rfl, startHash_of_legal k s h hp⟩)

/-- The operation kind a hash command starts (R114, R143). -/
def hashKind : Instr → OpKind
  | .hash64 => .h64
  | .hash32 => .h32
  | .clrstat => .idle

/-- What a command can leave: the overrun, CLRSTAT's clearing, a range error, or an operation just started. -/
inductive ExecOutcome (i : Instr) (s t : State) : Prop where
  | overrun (busy : s.busy = true) (eq : t = s.overrun)
  | clrstat (idle : s.busy = false) (hi : i = .clrstat) (eq : t = s.accept i.op)
  | addrRange (idle : s.busy = false) (hi : i = .hash64 ∨ i = .hash32)
      (wraps : rangeWraps s.blk.addr s.blk.len = true) (eq : t = (s.accept i.op).raise .addrRange)
  | started (idle : s.busy = false) (hi : i = .hash64 ∨ i = .hash32)
      (legal : rangeWraps s.blk.addr s.blk.len = false)
      (visible : s.storePending s.blk.addr s.blk.len = false)
      (eq : t = ((s.accept i.op).setBlk ((s.accept i.op).blk.start (hashKind i))).setLatch
        { seed := s.blk.seed, addr := s.blk.addr, len := s.blk.len })

theorem hashCommand_next (i : Instr) (hi : i = .hash64 ∨ i = .hash32) (s t : State)
    (h : s.command i.op (startHash (hashKind i)) = .next t) : ExecOutcome i s t := by
  cases hb : s.busy with
  | true =>
    rw [State.command_of_busy _ _ _ hb] at h
    exact .overrun hb (by simpa using h.symm)
  | false =>
    rw [State.command_of_idle _ _ _ hb] at h
    obtain ⟨h1, h2⟩ | ⟨-, -, h2⟩ | ⟨h1, h3, h2⟩ := startHash_cases (hashKind i) (s.accept i.op)
    · rw [h2] at h
      exact .addrRange hb hi h1 (by simpa using h.symm)
    · rw [h2] at h
      cases h
    · rw [h2] at h
      exact .started hb hi h1 h3 (by simpa using h.symm)

/-- What a command can leave when it answers a next state. -/
theorem exec_next (i : Instr) (s t : State) (h : exec i s = .next t) : ExecOutcome i s t := by
  cases i with
  | hash64 => exact hashCommand_next .hash64 (.inl rfl) s t h
  | hash32 => exact hashCommand_next .hash32 (.inr rfl) s t h
  | clrstat =>
    cases hb : s.busy with
    | true =>
      rw [exec, execClrstat, State.command_of_busy _ _ _ hb] at h
      exact .overrun hb (by simpa using h.symm)
    | false =>
      rw [exec, execClrstat, State.command_of_idle _ _ _ hb] at h
      exact .clrstat hb rfl (Host.Outcome.next.inj h).symm

/-- What a CMD write can leave: the decoded command's outcome, or for an illegal word the overrun or the error. -/
inductive CmdOutcome (w : Word) (s t : State) : Prop where
  | command (i : Instr) (decoded : decode w = .ok i) (out : ExecOutcome i s t)
  | overrun (busy : s.busy = true) (eq : t = s.overrun)
  | illegal (idle : s.busy = false) (e : DecodeError) (decoded : decode w = .error e)
      (eq : t = (s.accept (w.extractLsb' 0 8)).raise .illegalCmd)

theorem cmdWrite_next (w : Word) (s t : State) (h : cmdWrite w s = .next t) : CmdOutcome w s t := by
  unfold cmdWrite at h
  split at h
  · rename_i i hd
    exact .command i hd (exec_next i s t h)
  · rename_i e hd
    cases hb : s.busy with
    | true =>
      rw [execIllegal, State.command_of_busy _ _ _ hb] at h
      exact .overrun hb (by simpa using h.symm)
    | false =>
      rw [execIllegal, State.command_of_idle _ _ _ hb] at h
      exact .illegal hb e hd (by simpa using h.symm)

/-- A CMD write while BUSY = 1, whatever its word decodes to (R156). -/
theorem cmdWrite_of_busy (w : Word) (s : State) (hb : s.busy = true) : cmdWrite w s = .next s.overrun := by
  unfold cmdWrite
  split
  · rename_i i _
    cases i <;> exact State.command_of_busy _ _ _ hb
  · exact State.command_of_busy _ _ _ hb

/-- What the engine's step can leave (R120–R123, R125). -/
inductive EngineOutcome (s t : State) : Prop where
  | idle (idle : s.busy = false) (eq : t = s)
  | finished (busy : s.busy = true) (size : s.blk.blockSize = 0) (eq : t = s.setBlk s.blk.finish)
  | stuck (busy : s.busy = true) (size : s.blk.blockSize ≠ 0)
      (noDevice : s.blockDevice s.blk.ptr s.blk.blockSize = false) (silent : s.plat.memAnswers = false) (eq : t = s)
  | compressed (busy : s.busy = true) (size : s.blk.blockSize ≠ 0) (answers : s.plat.memAnswers = true)
      (noDevice : s.blockDevice s.blk.ptr s.blk.blockSize = false)
      (readable : s.blockReadable s.blk.ptr s.blk.blockSize = true)
      (eq : t = s.setBlk (s.blk.compress s.blk.blockSize (le64 (s.bytesAt s.blk.ptr s.blk.blockSize))))
  | busError (busy : s.busy = true) (size : s.blk.blockSize ≠ 0) (answers : s.plat.memAnswers = true)
      (noDevice : s.blockDevice s.blk.ptr s.blk.blockSize = false)
      (unreadable : s.blockReadable s.blk.ptr s.blk.blockSize = false)
      (eq : t = s.raise .busError)

theorem engineStep_next (s t : State) (h : engineStep s = .next t) : EngineOutcome s t := by
  unfold engineStep at h
  split_ifs at h with h1 h2 d h3
  · exact .idle h1 (by simpa using h.symm)
  · exact .finished (by simpa using h1) h2 (by simpa using h.symm)
  · exact .stuck (by simpa using h1) h2 (by simpa using d) h3 (by simpa using h.symm)
  · have hb : s.busy = true := by simpa using h1
    have d : s.blockDevice s.blk.ptr s.blk.blockSize = false := by simpa using d
    have hm : s.plat.memAnswers = true := by simpa using h3
    obtain ⟨r, e⟩ | ⟨r, e⟩ := s.memRead_cases s.blk.ptr s.blk.blockSize
    · rw [e] at h
      exact .compressed hb h2 hm d r (by simpa using h.symm)
    · rw [e] at h
      exact .busError hb h2 hm d r (by simpa using h.symm)

/-- What the memory agent's step can leave (R73, R198). -/
theorem memoryStep_next (s t : State) (h : memoryStep s = .next t) :
    (s.stores = [] ∧ t = s) ∨
    ∃ c cs, s.stores = c :: cs ∧ s.borrowed c.1 = false ∧ t = (s.setMem (s.mem.write c.1 c.2)).setStores cs := by
  unfold memoryStep at h
  split at h
  · rename_i hs
    exact .inl ⟨hs, by simpa using h.symm⟩
  · rename_i c cs hs
    split_ifs at h with hb
    exact .inr ⟨c, cs, hs, by simpa using hb, by simpa using h.symm⟩

/-- What the host's fence can leave (R70, R73, R198). -/
theorem fenceStep_next (s t : State) (h : fenceStep s = .next t) :
    (∀ c ∈ s.stores, s.borrowed c.1 = false) ∧ t = (s.setMem (s.mem.writeAll s.stores)).setStores [] := by
  unfold fenceStep at h
  split_ifs at h with hb
  exact ⟨by simpa using hb, by simpa using h.symm⟩

/-- What the host's store can leave (R73, R151). -/
theorem storeStep_next (a : Word) (b : Byte) (s t : State) (h : storeStep a b s = .next t) :
    s.plat.inWindow a.toNat = false ∧ s.borrowed a.toNat = false ∧ t = s.setStores (s.stores ++ [(a.toNat, b)]) := by
  unfold storeStep at h
  split_ifs at h with hw hb
  exact ⟨by simpa using hw, by simpa using hb, by simpa using h.symm⟩

theorem admitted_iff (width off : Nat) : admitted width off = true ↔ width = 64 ∧ off % 8 = 0 ∧ off < 0x80 := by
  simp [admitted, and_assoc]

theorem Reg.atOffset_eq_cmd (off : Nat) : Reg.atOffset off = .cmd ↔ off = 0x08 := by
  unfold Reg.atOffset
  split_ifs <;> simp_all

/-- What a register write can leave: a CMD write's outcome, or a write of one register (R152). -/
theorem regWrite_next (off : Nat) (w : Word) (s t : State) (h : regWrite off w s = .next t) :
    (off = 0x08 ∧ cmdWrite w s = .next t) ∨
    (Reg.atOffset off ≠ .cmd ∧ t = s.setBlk (s.blk.writeReg w (Reg.atOffset off))) := by
  unfold regWrite at h
  split at h
  · rename_i hr
    exact .inl ⟨(Reg.atOffset_eq_cmd off).1 hr, h⟩
  · rename_i hr
    exact .inr ⟨hr, by simpa using h.symm⟩

/-- What an operation of the host can leave. -/
inductive HostOutcome (s t : State) : HostOp → Prop where
  | read (width off : Nat) (ok : admitted width off = true) (eq : t = regRead off s) : HostOutcome s t (.read width off)
  | cmd (w : Word) (out : CmdOutcome w s t) : HostOutcome s t (.write 64 0x08 w)
  | write (width off : Nat) (w : Word) (ok : admitted width off = true) (notCmd : Reg.atOffset off ≠ .cmd)
      (eq : t = s.setBlk (s.blk.writeReg w (Reg.atOffset off))) : HostOutcome s t (.write width off w)
  | store (a : Word) (b : Byte) (outside : s.plat.inWindow a.toNat = false) (free : s.borrowed a.toNat = false)
      (eq : t = s.setStores (s.stores ++ [(a.toNat, b)])) : HostOutcome s t (.store a b)
  | fence (free : ∀ c ∈ s.stores, s.borrowed c.1 = false)
      (eq : t = (s.setMem (s.mem.writeAll s.stores)).setStores []) : HostOutcome s t .fence
  | wait (eq : t = waitStep s) : HostOutcome s t .wait

theorem hostOp_next (op : HostOp) (s t : State) (h : hostOp op s = .next t) : HostOutcome s t op := by
  cases op with
  | read width off =>
    simp only [hostOp] at h
    split_ifs at h with ok
    exact .read width off ok (by simpa using h.symm)
  | write width off w =>
    simp only [hostOp] at h
    split_ifs at h with ok
    obtain ⟨rfl, h⟩ | ⟨hr, e⟩ := regWrite_next off w s t h
    · obtain ⟨rfl, -⟩ := (admitted_iff width 0x08).1 ok
      exact .cmd w (cmdWrite_next w s t h)
    · exact .write width off w ok hr e
  | store a b =>
    obtain ⟨h1, h2, e⟩ := storeStep_next a b s t h
    exact .store a b h1 h2 e
  | fence =>
    obtain ⟨h1, e⟩ := fenceStep_next s t h
    exact .fence h1 e
  | wait =>
    simp only [hostOp] at h
    exact .wait (by simpa using h.symm)

/-- What a step can leave, by whose step it is; every outcome is of the state after the turn is taken up. -/
inductive StepOutcome (s t : State) : Prop where
  | hostIdle (turn : s.turn = .host) (none : s.host = []) (eq : t = s.takeTurn)
  | host (turn : s.turn = .host) (op : HostOp) (ops : List HostOp) (next : s.host = op :: ops)
      (out : HostOutcome (s.takeTurn.setHost ops) t op)
  | engine (turn : s.turn = .engine) (out : EngineOutcome s.takeTurn t)
  | memoryIdle (turn : s.turn = .memory) (none : s.stores = []) (eq : t = s.takeTurn)
  | memory (turn : s.turn = .memory) (c : Host.Cell) (cs : List Host.Cell) (next : s.stores = c :: cs)
      (free : s.borrowed c.1 = false) (eq : t = (s.takeTurn.setMem (s.mem.write c.1 c.2)).setStores cs)
  | reset (turn : s.turn = .reset) (eq : t = s.takeTurn.doReset)

theorem step_next (s t : State) (h : step s = .next t) : StepOutcome s t := by
  unfold step at h
  split at h
  · rename_i hturn
    unfold hostStep at h
    split at h
    · rename_i hh
      exact .hostIdle hturn (by simpa using hh) (by simpa using h.symm)
    · rename_i op ops hh
      exact .host hturn op ops (by simpa using hh) (hostOp_next op _ t h)
  · rename_i hturn
    exact .engine hturn (engineStep_next _ t h)
  · rename_i hturn
    obtain ⟨h1, e⟩ | ⟨c, cs, h1, h2, e⟩ := memoryStep_next _ t h
    · exact .memoryIdle hturn (by simpa using h1) e
    · refine .memory hturn c cs (by simpa using h1) ?_ (by simpa using e)
      simpa [State.borrowed, State.busy] using h2
  · rename_i hturn
    exact .reset hturn (by simpa using h.symm)

end Sys2Proof.Machine
end

