-- ==== Sys2Proof/Laws/PerInstr.lean ====
section
/-! SUPPORT. What holds of every command as syntax (30_encoding.md R80, R82): one lemma per constructor. -/

namespace Sys2Proof.Laws.CommandWord

/-- The command is well-formed, and its word has format CMDW, its OP and RSVD = 0 (R80). -/
def Statement (i : Instr) : Prop :=
  i.wf = true ∧ CmdWord.wf (encode i) = true ∧ CmdWord.op (encode i) = i.op ∧ CmdWord.rsvd (encode i) = 0

theorem hash64 : Statement .hash64 := by unfold Statement; decide

theorem hash32 : Statement .hash32 := by unfold Statement; decide

theorem clrstat : Statement .clrstat := by unfold Statement; decide

end Sys2Proof.Laws.CommandWord
end

