-- ==== Sys2Proof/Laws/Run.lean ====
section
/-! SUPPORT. Runs: the bytes of a buffer cut into blocks, the engine's step in each of its cases, runs of the engine and of
the machine, and what the host's small operations leave. -/

namespace Sys2Proof.Machine

open Sys2Proof.Safety

@[simp] theorem State.bytesAt_length (s : State) (a : Word) (n : Nat) : (s.bytesAt a n).length = n := by
  simp [State.bytesAt]

theorem State.bytesAt_drop (s : State) (a : Word) (n m : Nat) :
    (s.bytesAt a n).drop m = s.bytesAt (a + BitVec.ofNat 64 m) (n - m) := by
  refine List.ext_getElem (by simp) fun i _ _ => ?_
  simp [State.bytesAt, byteAddress_add]

theorem State.bytesAt_take (s : State) (a : Word) (n m : Nat) : (s.bytesAt a n).take m = s.bytesAt a (min m n) := by
  refine List.ext_getElem (by simp) fun i _ _ => ?_
  simp [State.bytesAt]

/-- Bytes at equal addresses of equal memories are equal (R74). -/
theorem State.bytesAt_congr (s t : State) (a b : Word) (n : Nat)
    (h : ∀ i < n, s.mem.read (byteAddress a i) = t.mem.read (byteAddress b i)) : s.bytesAt a n = t.bytesAt b n :=
  List.map_congr_left fun i hi => h i (List.mem_range.1 hi)

/-- A block whose bytes are all readable is read (R62). -/
theorem State.memRead_of_ok (s : State) (a : Word) (n : Nat)
    (h : ∀ i < n, s.plat.readableAt (byteAddress a i) = true) : s.memRead a n = .value (le64 (s.bytesAt a n)) := by
  have h2 : s.blockReadable a n = true := by
    simp only [State.blockReadable, List.all_eq_true, List.mem_range]
    exact h
  simp [State.memRead, h2]

theorem engineStep_of_idle (s : State) (h : s.busy = false) : engineStep s = .next s := by
  simp [engineStep, h]

theorem engineStep_of_end (s : State) (hb : s.busy = true) (h : s.blk.blockSize = 0) :
    engineStep s = .next (s.setBlk s.blk.finish) := by
  simp [engineStep, hb, h]

theorem engineStep_of_ok (s : State) (hb : s.busy = true) (hm : s.plat.memAnswers = true) (hz : s.blk.blockSize ≠ 0)
    (h : ∀ i < s.blk.blockSize, s.plat.readableAt (byteAddress s.blk.ptr i) = true ∧
      s.plat.deviceAt (byteAddress s.blk.ptr i) = false) :
    engineStep s = .next
      (s.setBlk (s.blk.compress s.blk.blockSize (le64 (s.bytesAt s.blk.ptr s.blk.blockSize)))) := by
  unfold engineStep
  have hd := (s.blockDevice_eq_false s.blk.ptr s.blk.blockSize).2 fun i hi => (h i hi).2
  rw [if_neg (by simp [hb]), if_neg hz, if_neg (by simp [hd]), if_neg (by simp [hm]),
    State.memRead_of_ok s _ _ fun i hi => (h i hi).1]

/-- One more engine step at the end of a run that met no stop. -/
theorem engineRun_succ (k : Nat) (s t : State) (h : engineRun k s = .next t) : engineRun (k + 1) s = engineStep t := by
  induction k generalizing s with
  | zero =>
    cases h
    simp only [engineRun]
    split <;> simp [*]
  | succ k ih =>
    unfold engineRun at h ⊢
    split at h
    · exact ih _ h
    · cases h
    · cases h

/-- A step that gives a next state begins a run of the machine. -/
theorem core_run_next (k : Nat) (s t : State) (h : step s = .next t) :
    Host.Core.run Sys2Proof.core (k + 1) s = Host.Core.run Sys2Proof.core k t := by
  have general : ∀ (M : Host.Core) (a b : M.State), M.step a = .next b → M.run (k + 1) a = M.run k b := by
    intro M a b hab
    rw [Host.Core.run, hab]
  exact general Sys2Proof.core s t h

@[simp] theorem waitStep_blk (s : State) : (waitStep s).blk = s.blk := by unfold waitStep; split <;> rfl
@[simp] theorem waitStep_latch (s : State) : (waitStep s).latch = s.latch := by unfold waitStep; split <;> rfl
@[simp] theorem waitStep_plat (s : State) : (waitStep s).plat = s.plat := by unfold waitStep; split <;> rfl
@[simp] theorem waitStep_mem (s : State) : (waitStep s).mem = s.mem := by unfold waitStep; split <;> rfl
@[simp] theorem waitStep_stores (s : State) : (waitStep s).stores = s.stores := by unfold waitStep; split <;> rfl
@[simp] theorem waitStep_reads (s : State) : (waitStep s).reads = s.reads ++ [s.blk.statusWord] := by
  unfold waitStep; split <;> rfl

/-- A register write, CMD's command apart, changes CTRL, SEED, ADDR or LEN and nothing else (R152). -/
theorem Block.writeReg_keeps (b : Block) (w : Word) (r : Reg) :
    (b.writeReg w r).opk = b.opk ∧ (b.writeReg w r).acc = b.acc ∧ (b.writeReg w r).ptr = b.ptr ∧
    (b.writeReg w r).rem = b.rem ∧ (b.writeReg w r).done = b.done ∧ (b.writeReg w r).err = b.err ∧
    (b.writeReg w r).ovr = b.ovr ∧ (b.writeReg w r).errcode = b.errcode ∧ (b.writeReg w r).lastop = b.lastop ∧
    (b.writeReg w r).result64 = b.result64 ∧ (b.writeReg w r).result32 = b.result32 ∧
    (b.writeReg w r).faultAddr = b.faultAddr := by
  cases r <;> simp [Block.writeReg]

/-- The register at a named register's offset is that register (R30). -/
theorem Reg.atOffset_offset (r : Reg) : Reg.atOffset r.offset = r := by
  cases r <;> rfl

/-- Bits of STATUS as bits of its number. -/
theorem Block.statusWord_getLsbD (b : Block) (i : Nat) :
    b.statusWord.getLsbD i = decide (b.statusWord.toNat / 2 ^ i % 2 = 1) := by
  rw [BitVec.getLsbD, Nat.testBit_eq_decide_div_mod_eq]

end Sys2Proof.Machine
end

