-- ==== Sys2Proof/Tests/Slice0.lean ====
section
/-! SUPPORT. Tests from the spec's own words, vectors and worked examples (95_test_vectors.md), the well-formedness smoke test,
and for every obligation with hypotheses a witness that meets them. -/

namespace Sys2Proof.Tests

open Sys2Proof.Machine Sys2Proof.Safety

/-! ## Well-formedness -/

/-- RSVD set (R83): ill-formed. -/
theorem test_wf_rsvd_refused : CmdWord.wf 0x0000000000000101 = false := by decide

/-- OP not listed (R82): ill-formed. -/
theorem test_wf_op_refused : CmdWord.wf 0x0000000000000004 = false := by decide

theorem test_wf_listed : CmdWord.wf 0x0000000000000002 = true ∧ Instr.hash32.wf = true := by decide

/-! ## Decoding: the words of R82 written out bit by bit from R80 ({RSVD, OP}) -/

theorem test_decode_hash64 : decode ((0 : BitVec 56) ++ (0b00000001 : BitVec 8)) = .ok .hash64 := by decide

theorem test_decode_hash32 : decode ((0 : BitVec 56) ++ (0b00000010 : BitVec 8)) = .ok .hash32 := by decide

theorem test_decode_clrstat : decode ((0 : BitVec 56) ++ (0b00000011 : BitVec 8)) = .ok .clrstat := by decide

theorem test_table_words :
    decodeTableWord 64 1 = some .hash64 ∧ decodeTableWord 64 2 = some .hash32 ∧ decodeTableWord 64 3 = some .clrstat ∧
      decodeTableWord 64 0x101 = none := by decide

/-! ## Arithmetic vectors of 95 section 2 -/

/-- V-MIX-03, V-MIX-04, V-MIX-08. -/
theorem test_mix_vectors :
    mix 0x0123456789abcdef = 0x563cd52e2262985d ∧ mix 0xffffffffffffffff = 0x9b4792000001368f ∧
      mix 0x0000000000800000 = 0xef2172ca0fb38275 := by decide

/-- V-FOLD-03, V-FOLD-07, V-FOLD-09. -/
theorem test_fold_vectors :
    fold32 0x0000000100000000 = 0xffffffff ∧ fold32 0x00000001ffffffff = 0xfffffffe ∧
      fold32 0x123456789abcdef0 = 0x88888878 := by decide

/-- V-ENG-04, V-ENG-06, V-ENG-11, V-ENG-12. -/
theorem test_engine_vectors :
    initAcc 0x0123456789abcdef 13 = 0xe908182c022187ce ∧ initAcc 0 0x100000000 = 0x1e6d196500000000 ∧
      combine 0xffffffffffffffff 0xffffffffffffffff = 0x098ddcf6c5e16930 ∧
      combine 0x880355f21e6d1965 0x0706050403020100 = 0x7f30f97911637470 := by decide

/-- V-ENG-08 and the tail of V-H64-12. -/
theorem test_le64_vectors :
    le64 [0x01, 0x02, 0x03] = 0x0000000000030201 ∧ le64 [0x08, 0x09, 0x0a, 0x0b, 0x0c] = 0x0000000c0b0a0908 := by decide

/-- V-H64-12 and V-H32-12 (a block and a tail), V-H64-08 (a block, no tail: C3), V-H64-04 (zero length). -/
theorem test_hash_vectors :
    pureHash64 [0, 1, 2, 3, 4, 5, 6, 7, 8, 9, 10, 11, 12] 0x0123456789abcdef = 0xe4a03ee3e3339ffd ∧
      pureHash32 [0, 1, 2, 3, 4, 5, 6, 7, 8, 9, 10, 11, 12] 0x0123456789abcdef = 0xfe93611a ∧
      pureHash64 [0, 1, 2, 3, 4, 5, 6, 7] 0 = 0x49a2c0f85f4e51d0 ∧
      pureHash64 [] 0x0123456789abcdef = 0x563cd52e2262985d := by decide

/-- V-TAIL-7 and V-H64-22 (ff sixteen times). -/
theorem test_hash_tail_and_blocks :
    pureHash64 [1, 2, 3, 4, 5, 6, 7] 0 = 0x5814bbdc5e560e38 ∧
      pureHash64 (List.replicate 16 0xff) 0 = 0x86e912b1d9d8f1b0 := by decide

/-! ## Small states -/

/-- A property of a next state; false of a stop. -/
def ofNext (r : Result) (p : State → Bool) : Bool :=
  match r with
  | .next t => p t
  | .fault _ => false
  | .refused _ => false

/-- The refusal a step ends in. -/
def refusalOf (r : Result) : Option Refusal :=
  match r with
  | .next _ => none
  | .fault _ => none
  | .refused x => some x

/-- P1's start state (95 section 3) with its operands written: 13 bytes 00 .. 0c at 0x1000, and nothing else readable. -/
def p1 : State :=
  let s := (State.reset.withMem 0x1000 [0, 1, 2, 3, 4, 5, 6, 7, 8, 9, 10, 11, 12]).withReadable 0x1000 0x100c
  { s with blk := { s.blk with seed := 0x0123456789abcdef, addr := 0x1000, len := 13 } }

/-- P1 after acceptance of the command, as the trace of V-H64-12 gives it. -/
def p1Busy (k : OpKind) : State :=
  { p1 with
    blk := { p1.blk with opk := k, acc := 0xe908182c022187ce, ptr := 0x1000, rem := 13, lastop := if k = .h32 then 2 else 1 }
    latch := { seed := 0x0123456789abcdef, addr := 0x1000, len := 13 } }

/-- P1 before the tail's read, as the trace of V-H64-12 gives it. -/
def p1Tail : State :=
  { p1Busy .h64 with blk := { (p1Busy .h64).blk with acc := 0x9a91e32b65c4cea7, ptr := 0x1008, rem := 5 } }

/-- P1 before finalisation, as the trace of V-H64-12 gives it. -/
def p1Last (k : OpKind) : State :=
  { p1Busy k with blk := { (p1Busy k).blk with acc := 0x54ce2eec6289ea6e, ptr := 0x100d, rem := 0 } }

/-- An operation of length 0 about to finalise (P5): ACC = SEED. -/
def emptyLast (k : OpKind) : State :=
  { State.reset with
    blk := { Block.reset with opk := k, acc := 0x0123456789abcdef, ptr := 0xdead0000, lastop := if k = .h32 then 2 else 1 }
    latch := { seed := 0x0123456789abcdef, addr := 0xdead0000, len := 0 } }

/-! ## One step each -/

/-- Acceptance of V-H64-12: ACC, PTR, REM, STATUS 0x00010001 (BUSY, LASTOP 1). -/
theorem test_hash64_accept :
    ofNext (exec .hash64 p1) (fun t => t.blk.acc == 0xe908182c022187ce && t.blk.ptr == 0x1000 && t.blk.rem == 13 &&
      t.blk.statusWord == 0x00010001) = true := by decide

/-- V-RNG-02: ADDR_RANGE at acceptance. -/
theorem test_hash64_range :
    ofNext (exec .hash64 { State.reset with blk := { Block.reset with addr := 0xfffffffffffffff8, len := 9 } })
      (fun t => t.blk.statusWord == 0x00010204) = true := by decide

/-- Acceptance of HASH32: STATUS 0x00020001. -/
theorem test_hash32_accept :
    ofNext (exec .hash32 p1) (fun t => t.blk.statusWord == 0x00020001 && t.blk.opk == .h32) = true := by decide

/-- V-IRQ-04: a second command while BUSY: STATUS 0x00010009, irq with ERR_IE. -/
theorem test_hash32_busy :
    ofNext (exec .hash32 { p1Busy .h64 with blk := { (p1Busy .h64).blk with errIe := true } })
      (fun t => t.blk.statusWord == 0x00010009 && t.blk.irq) = true := by decide

/-- V-CTL-06: CLRSTAT after an illegal word. -/
theorem test_clrstat :
    ofNext (exec .clrstat { State.reset with blk := { Block.reset with err := true, errcode := 1 } })
      (fun t => t.blk.statusWord == 0x00030000) = true := by decide

/-- V-CTL-04: 0x101 is illegal with LASTOP 0x01. -/
theorem test_illegal :
    ofNext (cmdWrite 0x101 State.reset) (fun t => t.blk.statusWord == 0x00010104 && t.blk.opk == .idle) = true := by decide

/-- The trace of V-H64-12, full block. -/
theorem test_engine_block :
    ofNext (engineStep (p1Busy .h64)) (fun t => t.blk.acc == 0x9a91e32b65c4cea7 && t.blk.ptr == 0x1008 && t.blk.rem == 5) =
      true := by decide

/-- The trace of V-H64-12, tail. -/
theorem test_engine_tail :
    ofNext (engineStep p1Tail) (fun t => t.blk.acc == 0x54ce2eec6289ea6e && t.blk.ptr == 0x100d && t.blk.rem == 0) = true := by
  decide

/-- P2's results: STATUS 0x00020002, both result registers. -/
theorem test_engine_final :
    ofNext (engineStep (p1Last .h32)) (fun t => t.blk.statusWord == 0x00020002 &&
      t.blk.result64 == 0xe4a03ee3e3339ffd && t.blk.result32 == 0x00000000fe93611a) = true := by decide

/-- V-RNG-03: a byte that is not readable: STATUS 0x00010304, FAULT_ADDR. -/
theorem test_engine_bus_error :
    ofNext (engineStep { State.reset with
      blk := { Block.reset with opk := .h64, lastop := 1, ptr := 0xffffffffffffffff, rem := 1 } })
      (fun t => t.blk.statusWord == 0x00010304 && t.blk.faultAddr == 0xffffffffffffffff) = true := by decide

/-- The machine with the block's own window in the buffer's space at 0 .. 0x7f. -/
def withOwnWindow (s : State) : State := { s with plat := { s.plat with ownWindow := [{ lo := 0, hi := 0x7f }] } }

/-- U5: the engine reads the block's own window, readable or not; where the platform keeps the window out of the buffer's space,
the bytes at REG_BASE are memory (R60, R67). -/
theorem test_engine_own_window :
    let s : State := { State.reset with blk := { Block.reset with opk := .h64, lastop := 1, ptr := 0x10, rem := 8 } }
    refusalOf (engineStep ((withOwnWindow s).withReadable 0 0xff)) = some .deviceRead ∧
      refusalOf (engineStep (withOwnWindow s)) = some .deviceRead ∧
      ofNext (engineStep (s.withReadable 0 0xff)) (fun t => t.blk.rem == 0 && t.busy) = true := by
  decide

/-- The word of a table row runs as the first instruction after reset. -/
theorem test_first_instruction :
    ofNext (step (State.reset.withFetchWord 64 1)) (fun t => t.blk.opk == .h64 && t.blk.statusWord == 0x00010001) = true ∧
      ofNext (step (State.reset.withFetchWord 64 3)) (fun t => t.blk.statusWord == 0x00030000) = true := by decide

/-- V-CTL-01, V-CTL-07. -/
theorem test_register_port :
    ofNext (hostOp (rd .id) State.reset) (fun t => t.reads == [0x4648363400010000]) = true ∧
      ofNext (hostOp (wr .ctrl 0xffffffffffffffff) State.reset) (fun t => t.blk.ctrlWord == 3) = true ∧
      refusalOf (hostOp (.read 32 0x10) State.reset) = some .notAdmitted := by decide

/-! ## Witnesses: the hypotheses of each obligation can be met -/

theorem wit_StepRunsQueuedCommand :
    let s : State := { State.reset with turns := [.host], host := [.write 64 0x08 1] }
    s.turns = .host :: [] ∧ s.host = .write 64 0x08 1 :: [] ∧ decode 1 = .ok .hash64 := by decide

theorem wit_FetchWordRunsTheCommand : decodeTableWord 64 2 = some .hash32 := by decide

theorem wit_EveryStepBelongsToOneTurn :
    (∃ s : State, s.turns = [.host] ∧ s.host = []) ∧ (∃ s : State, s.turns = [.host] ∧ s.host = [.fence]) ∧
      (∃ s : State, s.turns = [.engine]) ∧ (∃ s : State, s.turns = [.memory]) ∧ (∃ s : State, s.turns = [.reset]) ∧
      State.reset.turns = [] :=
  ⟨⟨{ State.reset with turns := [.host] }, rfl, rfl⟩, ⟨{ State.reset with turns := [.host], host := [.fence] }, rfl, rfl⟩,
    ⟨{ State.reset with turns := [.engine] }, rfl⟩, ⟨{ State.reset with turns := [.memory] }, rfl⟩,
    ⟨{ State.reset with turns := [.reset] }, rfl⟩, rfl⟩

/-- The range ends exactly at 2^64 (V-RNG-01), and a store waits outside it. -/
theorem wit_Hash64StartsOperation :
    let s : State := { State.reset with
      blk := { Block.reset with addr := 0xfffffffffffffff8, len := 8 }, stores := [(0xfffffffffffffff7, 1)] }
    s.blk.opk = .idle ∧ s.blk.addr.toNat + s.blk.len.toNat = 2 ^ 64 ∧
      (∀ c ∈ s.stores, ¬(s.blk.addr.toNat ≤ c.1 ∧ c.1 < s.blk.addr.toNat + s.blk.len.toNat)) := by decide

theorem wit_Hash32StartsOperation :
    p1.blk.opk = .idle ∧ p1.blk.addr.toNat + p1.blk.len.toNat ≤ 2 ^ 64 ∧
      (∀ c ∈ p1.stores, ¬(p1.blk.addr.toNat ≤ c.1 ∧ c.1 < p1.blk.addr.toNat + p1.blk.len.toNat)) := by decide

theorem wit_ClrstatClearsStatus :
    State.reset.blk.opk = .idle ∧ ofNext (exec .clrstat State.reset) (fun _ => true) = true ∧
      (p1Busy .h64).blk.opk ≠ .idle := by decide

/-- One past the top, and exactly the top, of the address space. -/
theorem wit_WrappingRangeRaisesAddrRange :
    let s : State := { State.reset with blk := { Block.reset with addr := 0xfffffffffffffff8, len := 9 } }
    let t : State := { State.reset with blk := { Block.reset with addr := 0xfffffffffffffff8, len := 8 } }
    (s.blk.opk = .idle ∧ s.blk.len ≠ 0 ∧ 2 ^ 64 < s.blk.addr.toNat + s.blk.len.toNat) ∧
      (t.blk.opk = .idle ∧ t.blk.addr.toNat + t.blk.len.toNat ≤ 2 ^ 64 ∧
        ofNext (exec .hash64 t) (fun _ => true) = true) := by decide

theorem wit_IllegalCommandRaises :
    State.reset.blk.opk = .idle ∧ (4 : Word) ≠ 1 ∧ (4 : Word) ≠ 2 ∧ (4 : Word) ≠ 3 := by decide

/-- OVR set and then cleared by the next acceptance. -/
theorem wit_BusyCommandOnlySetsOvr :
    let s : State := { State.reset with
      blk := { Block.reset with ovr := true, done := true, lastop := 1 }, host := [.write 64 0x08 3], turns := [.host] }
    (p1Busy .h32).blk.opk ≠ .idle ∧ s.blk.ovr = true ∧ ofNext (step s) (fun t => !t.blk.ovr) = true := by decide

theorem wit_AcceptanceByExactWord :
    p1.blk.opk = .idle ∧ ofNext (cmdWrite 2 p1) (fun _ => true) = true := by decide

/-- Each command answers a next state, idle and busy. -/
theorem wit_CommandFrame :
    ofNext (exec .hash64 p1) (fun _ => true) = true ∧ ofNext (exec .hash32 p1) (fun _ => true) = true ∧
      ofNext (exec .clrstat p1) (fun _ => true) = true ∧ ofNext (exec .hash64 (p1Busy .h32)) (fun t => t.busy) = true := by
  decide

theorem wit_AcceptanceDropsIrq :
    let s : State := { p1 with blk := { p1.blk with done := true, doneIe := true, lastop := 1 } }
    s.busy = false ∧ s.blk.irq = true ∧ ofNext (exec .hash64 s) (fun t => !t.blk.err) = true := by decide

/-- A store into the buffer's last byte is not visible. -/
theorem wit_InvisibleBufferHasNoMeaning :
    let s : State := { p1 with stores := [(0x100c, 7)] }
    s.blk.opk = .idle ∧ s.blk.addr.toNat + s.blk.len.toNat ≤ 2 ^ 64 ∧ (0x100c, 7) ∈ s.stores ∧
      s.blk.addr.toNat ≤ 0x100c ∧ 0x100c < s.blk.addr.toNat + s.blk.len.toNat := by decide

theorem wit_HashAbsorbsBlocksThenTail :
    (∀ b ∈ [List.replicate 8 (0xff : Byte)], b.length = 8) ∧ 0 < [(1 : Byte)].length ∧ [(1 : Byte)].length < 8 ∧
      (List.replicate 8 (0xff : Byte)).length ≤ 8 := by decide

/-- A readable block of 8, and a block with an unreadable last byte (V-BUS-02's shape). -/
theorem wit_BlockReadIsLittleEndian :
    (∀ i < 8, p1.plat.readableAt (byteAddress 0x1000 i) = true) ∧ p1.plat.readableAt (byteAddress 0x1006 7) = false := by
  decide

theorem wit_EngineIgnoresHostRegisters :
    p1.busy = false ∧ ofNext (engineStep (p1Busy .h64)) (fun _ => true) = true ∧
      refusalOf (engineStep (withOwnWindow { p1Busy .h64 with blk := { (p1Busy .h64).blk with ptr := 0 } })) =
        some .deviceRead := by decide

theorem wit_EngineCompressesBlock :
    (p1Busy .h64).blk.opk ≠ .idle ∧ min (p1Busy .h64).blk.rem.toNat 8 = 8 ∧ (p1Busy .h64).plat.memAnswers = true ∧
      (∀ i < 8, (p1Busy .h64).plat.deviceAt (byteAddress (p1Busy .h64).blk.ptr i) = false) ∧
      (p1Busy .h64).memRead (p1Busy .h64).blk.ptr 8 = .value 0x0706050403020100 := by decide

theorem wit_EngineStopsOnBusError :
    let s : State := { p1Busy .h64 with blk := { (p1Busy .h64).blk with ptr := 0x1006 } }
    s.blk.opk ≠ .idle ∧ s.blk.rem ≠ 0 ∧ s.plat.memAnswers = true ∧
      (∀ i < min s.blk.rem.toNat 8, s.plat.deviceAt (byteAddress s.blk.ptr i) = false) ∧
      s.memRead s.blk.ptr (min s.blk.rem.toNat 8) = .busError := by decide

theorem wit_EngineFinalises :
    (p1Last .h64).blk.opk = .h64 ∧ (p1Last .h64).blk.rem = 0 ∧ (p1Last .h32).blk.opk = .h32 ∧ (p1Last .h32).blk.rem = 0 := by
  decide

/-- The last byte of a block in the own window, though not readable, and in a region with read side effects, though the memory
is silent. -/
theorem wit_DeviceReadHasNoMeaning :
    let s : State := withOwnWindow { p1Busy .h64 with blk := { (p1Busy .h64).blk with ptr := 0x78 } }
    let t : State := { p1Busy .h64 with
      plat := { p1.plat with sideEffect := [{ lo := 0x1007, hi := 0x1007 }], memAnswers := false } }
    (s.blk.opk ≠ .idle ∧ 7 < min s.blk.rem.toNat 8 ∧ s.plat.readableAt (byteAddress s.blk.ptr 7) = false ∧
      ∃ r ∈ s.plat.ownWindow ++ s.plat.sideEffect, r.lo ≤ byteAddress s.blk.ptr 7 ∧ byteAddress s.blk.ptr 7 ≤ r.hi) ∧
    (t.blk.opk ≠ .idle ∧ 7 < min t.blk.rem.toNat 8 ∧
      ∃ r ∈ t.plat.ownWindow ++ t.plat.sideEffect, r.lo ≤ byteAddress t.blk.ptr 7 ∧ byteAddress t.blk.ptr 7 ≤ r.hi) := by decide

theorem wit_SilentMemoryLeavesBusy :
    let s : State := { p1Busy .h64 with plat := { p1.plat with memAnswers := false }, turns := [.engine] }
    s.busy = true ∧ s.blk.rem ≠ 0 ∧ s.plat.memAnswers = false ∧ s.turn ≠ .reset ∧
      ofNext (step s) (fun _ => true) = true := by decide

theorem p1Tail_operationInv : OperationInv p1Tail := by
  constructor <;> intro _ <;> decide

theorem wit_EngineReadsOnlyTheBuffer : OperationInv p1Tail ∧ p1Tail.blk.memRequest = some (0x1008, 5) :=
  ⟨p1Tail_operationInv, by decide⟩

/-- The first and the last reserved offset are admitted; a wrong width, an unaligned offset and 0x80 are not. -/
theorem wit_RegReadReturnsRegister :
    (0x50 ≤ 0x50 ∧ 0x50 < 0x80 ∧ 0x50 % 8 = 0) ∧ (0x50 ≤ 0x78 ∧ 0x78 < 0x80 ∧ 0x78 % 8 = 0) ∧
      admitted 64 0x78 = true ∧ admitted 32 0x10 = false ∧ admitted 64 0x14 = false ∧ admitted 64 0x80 = false := by decide

theorem wit_RegWriteEffects : Reg.atOffset 0x48 = .faultAddr ∧ Reg.atOffset 0x78 = .reserved := by decide

theorem p1Busy_statusInv : StatusInv (p1Busy .h64).blk := by
  constructor <;> decide

theorem wit_BusyStatusRead :
    StatusInv (p1Busy .h64).blk ∧ (p1Busy .h64).busy = true ∧
      ofNext (hostOp (.read 64 0x10) (p1Busy .h64)) (fun _ => true) = true :=
  ⟨p1Busy_statusInv, by decide, by decide⟩

theorem wit_WaitPollsUntilIdle : (p1Busy .h64).busy = true ∧ p1.busy = false := by decide

theorem wit_ReadsHaveOneResponseAndNoEffect :
    ofNext (step { p1 with turns := [.host], host := [rd .status] }) (fun t => t.reads == [0]) = true := by decide

theorem wit_WindowDecodeInvertsBusAddress :
    0x7f < 0x80 ∧ ofNext (step (p1.withFetchWord 64 1)) (fun _ => true) = true ∧
      refusalOf (step { p1 with turns := [.host], host := [.read 32 0] }) = some .notAdmitted := by decide

theorem wit_FenceMakesStoreVisible :
    MemoryInv p1 ∧ p1.stores = [] ∧ p1.busy = false ∧ p1.plat.inWindow (0x1000 : Word).toNat = false :=
  ⟨⟨by decide, by decide⟩, by decide, by decide, by decide⟩

/-- While BUSY = 1, on both sides of the latched range: two stores to the byte below it and one to the byte above, of which
the oldest one, the youngest one, and a zero are visible where they should be. -/
theorem wit_MemoryTurnShowsOldestStore :
    let s : State := { p1Busy .h64 with stores := [(0xfff, 1), (0xfff, 2), (0x100d, 3), (0x100d, 0)] }
    MemoryInv s ∧ s.busy = true ∧ s.plat.inWindow (0x100d : Word).toNat = false ∧
      (∀ c ∈ s.stores, ¬(s.latch.addr.toNat ≤ c.1 ∧ c.1 < s.latch.addr.toNat + s.latch.len.toNat)) ∧
      ofNext (memoryStep s) (fun t => t.mem.read 0xfff == 1 && t.stores.length == 3) = true ∧
      ofNext (fenceStep s) (fun t => t.mem.read 0xfff == 2 && t.mem.read 0x100d == 0) = true :=
  ⟨⟨by decide, by decide⟩, by decide, by decide, by decide, by decide, by decide⟩

/-- The first and the last borrowed byte, and a waiting store into the first. -/
theorem wit_BorrowedWriteHasNoMeaning :
    let s : State := p1Busy .h64
    let t : State := { s with stores := [(0x1000, 1)] }
    (s.blk.opk ≠ .idle ∧ s.latch.addr.toNat ≤ (0x100c : Word).toNat ∧
      (0x100c : Word).toNat < s.latch.addr.toNat + s.latch.len.toNat ∧ s.plat.inWindow (0x100c : Word).toNat = false) ∧
    (t.blk.opk ≠ .idle ∧ t.latch.addr.toNat ≤ 0x1000 ∧ 0x1000 < t.latch.addr.toNat + t.latch.len.toNat) := by decide

/-- A fence whose younger waiting store is to a borrowed byte, and the last and first byte of and after the register window. -/
theorem wit_BorrowedWriteHasNoMeaning_fence_window :
    let s : State := withOwnWindow { p1Busy .h64 with stores := [(0xfff, 1), (0x1000, 2)] }
    (s.blk.opk ≠ .idle ∧ (0x1000, 2) ∈ s.stores ∧ s.latch.addr.toNat ≤ 0x1000 ∧
      0x1000 < s.latch.addr.toNat + s.latch.len.toNat) ∧
    s.plat.inWindow (0x7f : Word).toNat = true ∧ s.plat.inWindow (0x80 : Word).toNat = false := by decide

/-- A waiting store outside the borrowed range becomes visible while BUSY = 1. -/
theorem wit_BufferStableWhileBusy :
    let s : State := { p1Busy .h64 with stores := [(0x100d, 1)], turns := [.memory] }
    s.busy = true ∧ ofNext (step s) (fun t => t.mem != s.mem) = true ∧ s.latch.addr.toNat ≤ 0x100c ∧
      0x100c < s.latch.addr.toNat + s.latch.len.toNat := by decide

theorem wit_OnlyHostStoresChangeMemory :
    ofNext (step { p1 with stores := [(5, 1)], turns := [.host], host := [.fence] }) (fun t => t.mem != p1.mem) = true := by
  decide

theorem wit_ResetRestoresEveryElement : ({ p1Busy .h64 with turns := [.reset] } : State).turn = .reset := by decide

theorem wit_ZeroLengthHashesSeed :
    let s : State := { State.reset with blk := { Block.reset with seed := 1, addr := 0xdead0000 } }
    s.blk.opk = .idle ∧ s.blk.len = 0 ∧ State.reset.blk.seed = 0 := by decide

/-- P1 with its command queued and three engine turns after the host's (R124: block, tail, final). -/
theorem wit_Hash64RunsToCompletion :
    let s : State := { p1 with host := [.write 64 0x08 1], turns := [.host, .engine, .engine, .engine] }
    s.turns = .host :: (List.replicate (blockCount s.blk.len.toNat + 1) .engine ++ []) ∧ s.blk.opk = .idle ∧
      s.blk.addr.toNat + s.blk.len.toNat ≤ 2 ^ 64 ∧ s.storePending s.blk.addr s.blk.len = false ∧
      bufferOk s s.blk.addr s.blk.len :=
  ⟨by decide, by decide, by decide, by decide, by unfold bufferOk; decide⟩

theorem wit_Hash32RunsToCompletion :
    let s : State := { p1 with host := [.write 64 0x08 2], turns := [.host, .engine, .engine, .engine] }
    s.turns = .host :: (List.replicate (blockCount s.blk.len.toNat + 1) .engine ++ []) ∧ s.blk.opk = .idle ∧
      s.blk.addr.toNat + s.blk.len.toNat ≤ 2 ^ 64 ∧ s.storePending s.blk.addr s.blk.len = false ∧
      bufferOk s s.blk.addr s.blk.len :=
  ⟨by decide, by decide, by decide, by decide, by unfold bufferOk; decide⟩

/-- P3's shape: 14 bytes asked for, the last unreadable, so the second block fails. -/
theorem wit_BusErrorIsPrecise :
    let s : State := { p1Busy .h64 with blk := { (p1Busy .h64).blk with rem := 14 } }
    s.blk.opk ≠ .idle ∧ s.plat.memAnswers = true ∧
      (∀ j < 14, s.plat.deviceAt (byteAddress s.blk.ptr j) = false) ∧
      (∀ j < 8 * 1, s.plat.readableAt (byteAddress s.blk.ptr j) = true) ∧
      8 * 1 ≤ 13 ∧ 13 < 8 * 1 + 8 ∧ 13 < s.blk.rem.toNat ∧ s.plat.readableAt (byteAddress s.blk.ptr 13) = false := by decide

theorem emptyLast_operationInv (k : OpKind) (hk : k ≠ .idle) : OperationInv (emptyLast k) := by
  cases k with
  | idle => exact absurd rfl hk
  | h64 => constructor <;> intro _ <;> decide
  | h32 => constructor <;> intro _ <;> decide

theorem wit_SameBytesSameHash :
    (emptyLast .h32).blk.opk = .h32 ∧ OperationInv (emptyLast .h32) ∧
      OperationInv { emptyLast .h32 with mem := [(1, 1)] } ∧ (emptyLast .h32).blk.rem = 0 :=
  ⟨rfl, emptyLast_operationInv .h32 (by decide), by constructor <;> intro _ <;> decide, rfl⟩

theorem wit_CompletionWritesHashOfBuffer :
    OperationInv (emptyLast .h64) ∧ (emptyLast .h64).busy = true ∧ (emptyLast .h64).blk.rem = 0 ∧
      OperationInv (p1Last .h64) ∧ (p1Last .h64).busy = true ∧ (p1Last .h64).blk.rem = 0 :=
  ⟨emptyLast_operationInv .h64 (by decide), rfl, rfl, by constructor <;> intro _ <;> decide, rfl, rfl⟩

theorem wit_StepKeepsStatusInvariant :
    StatusInv (p1Busy .h64).blk ∧ ofNext (step { p1Busy .h64 with turns := [.engine] }) (fun _ => true) = true :=
  ⟨p1Busy_statusInv, by decide⟩

theorem wit_StepKeepsMemoryCanonical :
    MemoryInv { p1 with stores := [(0x1000, 0)], turns := [.memory] } ∧
      ofNext (step { p1 with stores := [(0x1000, 0)], turns := [.memory] }) (fun _ => true) = true :=
  ⟨⟨by decide, by decide⟩, by decide⟩

theorem wit_StepKeepsOperationInvariant :
    OperationInv { p1Tail with turns := [.engine] } ∧
      ofNext (step { p1Tail with turns := [.engine] }) (fun _ => true) = true :=
  ⟨by constructor <;> intro _ <;> decide, by decide⟩

/-- A completing step changes RESULT64; a bus error changes FAULT_ADDR. -/
theorem wit_ResultsChangeOnlyAtCompletion :
    let s : State := { p1Last .h32 with turns := [.engine] }
    let t : State := { p1Busy .h64 with blk := { (p1Busy .h64).blk with ptr := 0x1006 }, turns := [.engine] }
    ofNext (step s) (fun u => u.blk.result64 != s.blk.result64 && u.blk.result32 != s.blk.result32) = true ∧
      s.turn ≠ .reset ∧ ofNext (step t) (fun u => u.blk.faultAddr != t.blk.faultAddr) = true ∧ t.turn ≠ .reset := by decide

theorem wit_BusyChangesOnlyByRule :
    (p1Last .h64).busy = true ∧ ofNext (step { p1Last .h64 with turns := [.engine] }) (fun t => !t.busy) = true ∧
      p1.busy = false ∧ ofNext (step (p1.withFetchWord 64 1)) (fun t => t.busy) = true := by decide

/-! ## A fair run -/

/-- The run from a state, standing still where a step has no meaning. -/
def runFrom (s : State) : Nat → State
  | 0 => s
  | n + 1 =>
    match step (runFrom s n) with
    | .next t => t
    | .fault _ => runFrom s n
    | .refused _ => runFrom s n

/-- A host that has asked for nothing more and an idle block: whatever the free turns are, so it stays. -/
structure Quiet (s : State) : Prop where
  turns : s.turns = []
  host : s.host = []
  stores : s.stores = []
  idle : s.busy = false

theorem quiet_step (s : State) (h : Quiet s) : ∃ t, step s = .next t ∧ Quiet t := by
  obtain ⟨h1, h2, h3, h4⟩ := h
  have hb : s.takeTurn.busy = false := by simpa [State.busy] using h4
  unfold step
  split
  · exact ⟨s.takeTurn, by simp [hostStep, h2], by simp [State.takeTurn, h1], by simp [h2], by simp [h3], hb⟩
  · exact ⟨s.takeTurn, engineStep_of_idle _ hb, by simp [State.takeTurn, h1], by simp [h2], by simp [h3], hb⟩
  · exact ⟨s.takeTurn, by simp [memoryStep, h3], by simp [State.takeTurn, h1], by simp [h2], by simp [h3], hb⟩
  · exact ⟨_, rfl, by simp [State.takeTurn, h1], by simp [h2], by simp [h3], rfl⟩

/-- An operation about to finalise while the host waits for it: the engine's turn, then the host's. -/
def fairStart : State := { emptyLast .h64 with host := [.wait], turns := [.engine, .host] }

theorem fairStart_quiet : ∀ n : Nat, step (runFrom fairStart (n + 2)) = .next (runFrom fairStart (n + 3)) ∧
    Quiet (runFrom fairStart (n + 2)) := by
  have go : ∀ n : Nat, Quiet (runFrom fairStart (n + 2)) := by
    intro n
    induction n with
    | zero => exact ⟨rfl, rfl, rfl, rfl⟩
    | succ n ih =>
      obtain ⟨t, e, q⟩ := quiet_step _ ih
      rw [show runFrom fairStart (n + 1 + 2) = t by rw [runFrom, e]]
      exact q
  intro n
  obtain ⟨t, e, -⟩ := quiet_step _ (go n)
  exact ⟨by rw [show runFrom fairStart (n + 3) = t by rw [runFrom, e]]; exact e, go n⟩

theorem fairStart_fair : FairRun (runFrom fairStart) where
  steps
    | 0 => rfl
    | 1 => rfl
    | n + 2 => (fairStart_quiet n).1
  engine
    | 0 => fun _ _ => ⟨0, le_refl _, .inr rfl⟩
    | 1 => fun _ _ => ⟨1, le_refl _, .inl rfl⟩
    | n + 2 => fun _ _ => ⟨n + 2, le_refl _, .inl (fairStart_quiet n).2.idle⟩

theorem wit_FairOperationsEnd :
    FairRun (runFrom fairStart) ∧ (runFrom fairStart 0).busy = true ∧ (runFrom fairStart 0).plat.memAnswers = true :=
  ⟨fairStart_fair, rfl, rfl⟩

theorem wit_FairWaitsEnd :
    FairRun (runFrom fairStart) ∧ HostGoesOn (runFrom fairStart) ∧ (runFrom fairStart 0).plat.memAnswers = true ∧
      (runFrom fairStart 0).host = .wait :: [] := by
  refine ⟨fairStart_fair, fun n hn => ?_, rfl, rfl⟩
  match n, hn with
  | 0, _ => exact ⟨1, by decide, rfl⟩
  | 1, _ => exact ⟨1, le_refl _, rfl⟩
  | n + 2, hn => exact absurd (fairStart_quiet n).2.host hn

end Sys2Proof.Tests
end

section
/-! The turn, the memory and the waiting stores across a step (00_scope.md R6, R9): what each turn's step is, what a command
and the engine leave alone, and the canonical form of memory. -/

namespace Sys2Proof.Machine

theorem State.turn_of_cons (s : State) (u : Turn) (ts : List Turn) (h : s.turns = u :: ts) : s.turn = u := by
  simp [State.turn, h]

theorem State.turn_of_nil (s : State) (h : s.turns = []) : s.turn = Config.freeTurn s.tick := by
  simp [State.turn, h]

theorem State.takeTurn_of_cons (s : State) (u : Turn) (ts : List Turn) (h : s.turns = u :: ts) :
    s.takeTurn = { s with turns := ts } := by
  simp [State.takeTurn, h]

theorem State.takeTurn_of_nil (s : State) (h : s.turns = []) : s.takeTurn = { s with tick := s.tick + 1 } := by
  simp [State.takeTurn, h]

/-- The step that a turn is, from the state after the turn is taken up (R6, R190). -/
def turnStep (u : Turn) (s : State) : Result :=
  match u with
  | .host => hostStep s
  | .engine => engineStep s
  | .memory => memoryStep s
  | .reset => .next s.doReset

theorem step_eq_turnStep (s : State) : step s = turnStep s.turn s.takeTurn := by
  cases h : s.turn <;> simp only [step, turnStep, h]

theorem step_of_turns_cons (s : State) (u : Turn) (ts : List Turn) (h : s.turns = u :: ts) :
    step s = turnStep u { s with turns := ts } := by
  rw [step_eq_turnStep, s.turn_of_cons u ts h, s.takeTurn_of_cons u ts h]

theorem step_of_turns_nil (s : State) (h : s.turns = []) :
    step s = turnStep (Config.freeTurn s.tick) { s with tick := s.tick + 1 } := by
  rw [step_eq_turnStep, s.turn_of_nil h, s.takeTurn_of_nil h]

theorem hostStep_of_nil (s : State) (h : s.host = []) : hostStep s = .next s := by
  simp [hostStep, h]

theorem hostStep_of_cons (s : State) (op : HostOp) (ops : List HostOp) (h : s.host = op :: ops) :
    hostStep s = hostOp op (s.setHost ops) := by
  simp [hostStep, h]

/-- A command changes the block and the latch and nothing else (R153). -/
theorem ExecOutcome.only_blk_latch {i : Instr} {s t : State} (h : ExecOutcome i s t) :
    ∃ b l, t = (s.setBlk b).setLatch l := by
  cases h with
  | overrun _ e => exact ⟨s.blk.overrun, s.latch, e⟩
  | clrstat _ _ e => exact ⟨s.blk.accept i.op, s.latch, e⟩
  | addrRange _ _ _ e => exact ⟨(s.blk.accept i.op).raise .addrRange, s.latch, e⟩
  | started _ _ _ _ e => exact ⟨(s.blk.accept i.op).start (hashKind i), _, e⟩

/-- A CMD write, of whatever word, changes the block and the latch and nothing else (R153, R155, R156). -/
theorem CmdOutcome.only_blk_latch {w : Word} {s t : State} (h : CmdOutcome w s t) :
    ∃ b l, t = (s.setBlk b).setLatch l := by
  cases h with
  | command _ _ out => exact out.only_blk_latch
  | overrun _ e => exact ⟨s.blk.overrun, s.latch, e⟩
  | illegal _ _ _ e => exact ⟨(s.blk.accept (w.extractLsb' 0 8)).raise .illegalCmd, s.latch, e⟩

/-- The engine's step changes the block and nothing else (R60, R120). -/
theorem EngineOutcome.only_blk {s t : State} (h : EngineOutcome s t) : ∃ b, t = s.setBlk b := by
  cases h with
  | idle _ e => exact ⟨s.blk, e⟩
  | finished _ _ e => exact ⟨s.blk.finish, e⟩
  | stuck _ _ _ _ e => exact ⟨s.blk, e⟩
  | compressed _ _ _ _ _ e => exact ⟨s.blk.compress _ _, e⟩
  | busError _ _ _ _ _ e => exact ⟨s.blk.raise .busError, e⟩

end Sys2Proof.Machine

namespace Sys2Proof.Safety

open Sys2Proof.Machine

/-- The memory invariant looks at the memory and the waiting stores only. -/
theorem MemoryInv.congr {s t : State} (h : MemoryInv s) (hm : t.mem = s.mem) (hs : t.stores = s.stores) : MemoryInv t :=
  ⟨hm ▸ h.memWf, hs ▸ h.storesInSpace⟩

/-- An operation of the host keeps the canonical form: a store's address is a 64-bit word, and a fence writes the waiting
stores one by one. -/
theorem MemoryInv.of_hostOutcome {s t : State} {op : HostOp} (h : MemoryInv s) (out : HostOutcome s t op) : MemoryInv t := by
  cases out with
  | read _ _ _ e => exact h.congr (by simp [e, regRead]) (by simp [e, regRead])
  | cmd _ out =>
    obtain ⟨b, l, rfl⟩ := out.only_blk_latch
    exact h.congr rfl rfl
  | write _ _ _ _ _ e => exact h.congr (by simp [e]) (by simp [e])
  | store a b _ _ e =>
    subst e
    refine ⟨h.memWf, fun c hc => ?_⟩
    obtain hc | rfl : c ∈ s.stores ∨ c = (a.toNat, b) := by simpa using hc
    · exact h.storesInSpace c hc
    · exact a.isLt
  | fence _ e =>
    subst e
    exact ⟨Memory.writeAll_wf s.mem s.stores h.memWf h.storesInSpace, by simp⟩
  | wait e => exact h.congr (by simp [e]) (by simp [e])

end Sys2Proof.Safety

namespace Sys2Proof.Proofs

open Sys2Proof.Machine Sys2Proof.Safety

/-- Settles O54: only the memory agent's turn and the host's store and fence touch memory or waiting stores, and each of
them keeps the form. -/
theorem stepKeepsMemoryCanonical : Obligations.StepKeepsMemoryCanonical := by
  intro s t h hstep
  have taken : MemoryInv s.takeTurn := h.congr (by simp) (by simp)
  cases step_next s t hstep with
  | hostIdle _ _ e => exact e ▸ taken
  | host _ op ops _ out => exact (taken.congr (t := s.takeTurn.setHost ops) rfl rfl).of_hostOutcome out
  | engine _ out =>
    obtain ⟨b, rfl⟩ := out.only_blk
    exact taken.congr rfl rfl
  | memoryIdle _ _ e => exact e ▸ taken
  | memory _ c cs next _ e =>
    subst e
    have stores : ∀ d ∈ c :: cs, d.1 < 2 ^ 64 := next ▸ h.storesInSpace
    exact ⟨Memory.write_wf s.mem c.1 c.2 h.memWf (stores c (by simp)), fun d hd => stores d (by simp_all)⟩
  | reset _ e => exact taken.congr (by simp [e]) (by simp [e])

/-- Settles O6: with a turn listed the step is that turn's, and with none it is the free value's. -/
theorem everyStepBelongsToOneTurn : Obligations.EveryStepBelongsToOneTurn := by
  refine ⟨fun s ts ht hh => ?_, fun s ts op ops ht hh => ?_, fun s ts ht => ?_, fun s ts ht => ?_, fun s ts ht => ?_,
    fun s ht => ?_⟩
  · rw [step_of_turns_cons s _ ts ht]
    exact hostStep_of_nil _ hh
  · rw [step_of_turns_cons s _ ts ht]
    exact hostStep_of_cons _ op ops hh
  · exact step_of_turns_cons s .engine ts ht
  · exact step_of_turns_cons s .memory ts ht
  · exact step_of_turns_cons s .reset ts ht
  · rw [step_of_turns_nil s ht, step_of_turns_cons _ _ [] rfl, ← ht]

end Sys2Proof.Proofs

end

section
/-! The status and control words, what a step answers to a read, and when the results and BUSY change (10_state.md R22, R26,
R29, R33, R34, R38–R40). -/

namespace Sys2Proof.Machine

/-- Concatenation as arithmetic on the numbers: the high part stands above the low part's bits. -/
theorem toNat_append_eq_mul_add {m n : Nat} (x : BitVec m) (y : BitVec n) : (x ++ y).toNat = x.toNat * 2 ^ n + y.toNat := by
  rw [BitVec.toNat_append, ← Nat.shiftLeft_add_eq_or_of_lt y.isLt, Nat.shiftLeft_eq]

theorem Block.toNat_busy (b : Block) : b.busy.toNat = if b.opk = .idle then 0 else 1 := by
  cases h : b.opk <;> simp [Block.busy, h]

/-- CTRL's value after a write is the low two bits of the word written (R34). -/
theorem Block.ctrlWord_writeCtrl (b : Block) (w : Word) : (b.writeCtrl w).ctrlWord = w &&& 3 := by
  refine BitVec.eq_of_getLsbD_eq fun i hi => ?_
  simp only [Block.ctrlWord, Block.writeCtrl, BitVec.getLsbD_setWidth, BitVec.getLsbD_append, BitVec.getLsbD_ofBool,
    BitVec.getLsbD_and]
  match i with
  | 0 => simp
  | 1 => simp
  | i + 2 =>
    have above : (3#64).getLsbD (i + 2) = false :=
      Nat.testBit_lt_two_pow (show 3 < 2 ^ (i + 2) by rw [Nat.pow_add]; have := Nat.two_pow_pos i; omega)
    simp [above]

theorem Block.irq_writeCtrl (b : Block) (w : Word) :
    (b.writeCtrl w).irq = ((b.done && w.getLsbD 0) || ((b.err || b.ovr) && w.getLsbD 1)) := by
  simp [Block.irq]

theorem Block.blockSize_eq_zero_iff (b : Block) : b.blockSize = 0 ↔ b.rem = 0 := by
  rw [Block.blockSize, ← BitVec.toNat_inj, show (0 : Word).toNat = 0 from rfl]
  omega

@[simp] theorem ErrCode.bits_busError : ErrCode.busError.bits = 3 := rfl

@[simp] theorem State.takeTurn_busy (s : State) : s.takeTurn.busy = s.busy := by
  simp [State.busy]

/-- The words of HASH64 and HASH32 (R82, R83). -/
theorem hash_word_of_decode {w : Word} {i : Instr} (h : decode w = .ok i) (hi : i = .hash64 ∨ i = .hash32) :
    w = 1 ∨ w = 2 := by
  unfold decode at h
  split_ifs at h with h1 h2 h3
  · exact .inl h1
  · exact .inr h2
  · cases h
    simp at hi

end Sys2Proof.Machine

namespace Sys2Proof.Proofs

open Sys2Proof.Machine

/-- Settles O35: STATUS is a concatenation, so its number is the sum of its parts. -/
theorem statusWordLayout : Obligations.StatusWordLayout := by
  intro b
  have code := b.errcode.isLt
  have op := b.lastop.isLt
  rw [← Block.toNat_busy, Block.statusWord, BitVec.toNat_setWidth]
  simp only [toNat_append_eq_mul_add, BitVec.toNat_ofBool, show (0 : BitVec 4).toNat = 0 from rfl]
  have := Bool.toNat_lt b.ovr
  have := Bool.toNat_lt b.err
  have := Bool.toNat_lt b.done
  have := Bool.toNat_lt b.busy
  omega

/-- Settles O33: the write is admitted in every state and sets CTRL's two bits, which `irq` reads. -/
theorem ctrlKeepsTwoBits : Obligations.CtrlKeepsTwoBits :=
  ⟨fun s w => ⟨s.setBlk (s.blk.writeCtrl w), rfl, s.blk.ctrlWord_writeCtrl w, s.blk.irq_writeCtrl w⟩, by decide⟩

end Sys2Proof.Proofs

namespace Sys2Proof.Machine

/-- A CMD write leaves OPK alone, or starts an operation of an idle block by one of the two hash words (R114, R143). -/
theorem CmdOutcome.opk {w : Word} {s t : State} (h : CmdOutcome w s t) :
    t.blk.opk = s.blk.opk ∨ (s.busy = false ∧ (w = 1 ∨ w = 2)) := by
  have stays : s.busy = false → s.blk.opk = .idle := s.blk.busy_eq_false.1
  cases h with
  | command i decoded out =>
    cases out with
    | overrun _ e => exact .inl (by simp [e])
    | clrstat _ _ e => exact .inl (by simp [e])
    | addrRange idle _ _ e => exact .inl (by simp [e, stays idle])
    | started idle hi _ _ _ => exact .inr ⟨idle, hash_word_of_decode decoded hi⟩
  | overrun _ e => exact .inl (by simp [e])
  | illegal idle _ _ e => exact .inl (by simp [e, stays idle])

/-- A CMD write leaves the results and FAULT_ADDR alone (R38, R39, R40). -/
theorem CmdOutcome.results {w : Word} {s t : State} (h : CmdOutcome w s t) :
    t.blk.result64 = s.blk.result64 ∧ t.blk.result32 = s.blk.result32 ∧ t.blk.faultAddr = s.blk.faultAddr := by
  cases h with
  | command i decoded out =>
    cases out with
    | overrun _ e => simp [e]
    | clrstat _ _ e => simp [e]
    | addrRange idle _ _ e => simp [e]
    | started _ hi _ _ e => simp [e]
  | overrun _ e => simp [e]
  | illegal idle _ _ e => simp [e]

/-- Of the host's operations only the 64-bit write of a hash word to CMD of an idle block changes OPK. -/
theorem HostOutcome.opk {op : HostOp} {s t : State} (h : HostOutcome s t op) :
    t.blk.opk = s.blk.opk ∨ (s.busy = false ∧ ∃ w : Word, op = .write 64 0x08 w ∧ (w = 1 ∨ w = 2)) := by
  cases h with
  | read _ _ _ e => exact .inl (by simp [e, regRead])
  | cmd w out => exact out.opk.imp_right fun ⟨idle, hw⟩ => ⟨idle, w, rfl, hw⟩
  | write _ off w _ _ e => exact .inl (by simp [e, Block.writeReg_keeps])
  | store _ _ _ _ e => exact .inl (by simp [e])
  | fence _ e => exact .inl (by simp [e])
  | wait e => exact .inl (by simp [e])

/-- No operation of the host changes the results or FAULT_ADDR. -/
theorem HostOutcome.results {op : HostOp} {s t : State} (h : HostOutcome s t op) :
    t.blk.result64 = s.blk.result64 ∧ t.blk.result32 = s.blk.result32 ∧ t.blk.faultAddr = s.blk.faultAddr := by
  cases h with
  | read _ _ _ e => simp [e, regRead]
  | cmd w out => exact out.results
  | write _ off w _ _ e => simp [e, Block.writeReg_keeps]
  | store _ _ _ _ e => simp [e]
  | fence _ e => simp [e]
  | wait e => simp [e]

/-- An operation of the host gives no response, or one, and then the block, the memory and the latch stay as they are
(R29, R66). -/
theorem HostOutcome.reads {op : HostOp} {s t : State} (h : HostOutcome s t op) :
    t.reads = s.reads ∨
      (t.blk = s.blk ∧ t.mem = s.mem ∧ t.latch = s.latch ∧ ∃ v : Word, t.reads = s.reads ++ [v]) := by
  cases h with
  | read _ off _ e => exact .inr (by simp [e, regRead])
  | cmd w out =>
    obtain ⟨b, l, rfl⟩ := out.only_blk_latch
    exact .inl rfl
  | write _ _ _ _ _ e => exact .inl (by simp [e])
  | store _ _ _ _ e => exact .inl (by simp [e])
  | fence _ e => exact .inl (by simp [e])
  | wait e => exact .inr (by simp [e])

/-- What an engine's turn does to the block, by REM: nothing, finalisation, one block absorbed or a bus error (R120). -/
inductive EngineChange (b c : Block) : Prop where
  | same (eq : c = b)
  | finished (busy : b.busy = true) (rem : b.rem = 0) (eq : c = b.finish)
  | compressed (busy : b.busy = true) (rem : b.rem ≠ 0) (n : Nat) (v : Word) (eq : c = b.compress n v)
  | busError (busy : b.busy = true) (rem : b.rem ≠ 0) (eq : c = b.raise .busError)

theorem EngineOutcome.change {s t : State} (h : EngineOutcome s t) : EngineChange s.blk t.blk := by
  have left : s.blk.blockSize ≠ 0 → s.blk.rem ≠ 0 := mt s.blk.blockSize_eq_zero_iff.2
  cases h with
  | idle _ e => exact .same (by rw [e])
  | finished busy size e => exact .finished busy (s.blk.blockSize_eq_zero_iff.1 size) (by rw [e]; rfl)
  | stuck _ _ _ _ e => exact .same (by rw [e])
  | compressed busy size _ _ _ e => exact .compressed busy (left size) _ _ (by rw [e]; rfl)
  | busError busy size _ _ _ e => exact .busError busy (left size) (by rw [e]; rfl)

end Sys2Proof.Machine

namespace Sys2Proof.Proofs

open Sys2Proof.Machine

/-- Settles O38: only the host's reads, `wait` among them, append to the recorded values, one value each. -/
theorem readsHaveOneResponseAndNoEffect : Obligations.ReadsHaveOneResponseAndNoEffect := by
  intro s t hstep
  cases step_next s t hstep with
  | hostIdle _ _ e => exact .inl (by simp [e])
  | host turn _ ops _ out =>
    exact out.reads.imp (fun same => by simpa using same) fun answered => ⟨turn, by simpa using answered⟩
  | engine _ out =>
    obtain ⟨b, rfl⟩ := out.only_blk
    exact .inl (by simp)
  | memoryIdle _ _ e => exact .inl (by simp [e])
  | memory _ _ _ _ _ e => exact .inl (by simp [e])
  | reset _ e => exact .inl (by simp [e])

/-- Settles O56: no operation of the host touches the results, and of the engine's steps the completing one writes them and
the bus error writes FAULT_ADDR. -/
theorem resultsChangeOnlyAtCompletion : Obligations.ResultsChangeOnlyAtCompletion := by
  intro s t hstep notReset
  cases step_next s t hstep with
  | hostIdle _ _ e => simp [e]
  | host _ _ _ _ out =>
    obtain ⟨h64, h32, fault⟩ := out.results
    simp [h64, h32, fault]
  | engine turn out =>
    have change := out.change
    rw [State.takeTurn_blk] at change
    cases change with
    | same e => simp [e]
    | finished busy rem e =>
      refine ⟨fun _ => ⟨turn, busy, rem, by simp [State.busy_eq, e], by simp [e], by simp [e]⟩, fun changed => ?_,
        by simp [e]⟩
      have h32 : s.blk.opk = .h32 := by
        by_contra other
        exact changed (by simp [e, other])
      exact ⟨h32, by simp [e, h32]⟩
    | compressed _ _ _ _ e => simp [e]
    | busError busy rem e => exact ⟨by simp [e], by simp [e], fun _ => ⟨turn, busy, rem, by simp [e]⟩⟩
  | memoryIdle _ _ e => simp [e]
  | memory _ _ _ _ _ e => simp [e]
  | reset turn _ => exact absurd turn notReset

/-- Settles O57: the host raises BUSY by a hash word only and never lowers it; the engine lowers it at the end of the bytes
or at a bus error and never raises it. -/
theorem busyChangesOnlyByRule : Obligations.BusyChangesOnlyByRule := by
  intro s t hstep
  cases step_next s t hstep with
  | hostIdle _ _ e => simp_all
  | host turn op ops next out =>
    obtain same | ⟨idle, w, rfl, word⟩ := out.opk
    · simp_all [State.busy_eq]
    · have idle : s.busy = false := by simpa [State.busy_eq] using idle
      exact ⟨by simp [idle], fun _ _ => ⟨turn, w, ops, next, word⟩⟩
  | engine turn out =>
    have change := out.change
    rw [State.takeTurn_blk] at change
    cases change with
    | same e => simp_all [State.busy_eq]
    | finished busy rem e => exact ⟨fun _ _ => .inr ⟨turn, .inl ⟨rem, by simp [e]⟩⟩, by simp [State.busy_eq, e]⟩
    | compressed _ _ _ _ e => simp_all [State.busy_eq]
    | busError busy rem e => exact ⟨fun _ _ => .inr ⟨turn, .inr ⟨rem, by simp [e]⟩⟩, by simp [State.busy_eq, e]⟩
  | memoryIdle _ _ e => simp_all
  | memory _ _ _ _ _ e => simp_all [State.busy_eq]
  | reset turn e => exact ⟨fun _ _ => .inl turn, by simp [State.busy_eq, e, Block.reset]⟩

end Sys2Proof.Proofs
end

section
/-! The operation invariant across a step (10_state.md R24, R25; 20_memory.md R69, R73; 41_loop_engine.md R116, R117,
R121). -/

namespace Sys2Proof.Machine

/-- Compressing the next block takes its bytes off REM, without wrapping (R121). -/
theorem Block.compress_rem_toNat (b : Block) (v : Word) :
    (b.compress b.blockSize v).rem.toNat = b.rem.toNat - b.blockSize := by
  rw [Block.compress_rem, BitVec.toNat_sub, BitVec.toNat_ofNat, Block.blockSize]
  omega

end Sys2Proof.Machine

namespace Sys2Proof.Safety

open Sys2Proof.Machine

/-- One more full block (R116). -/
theorem absorbBlocks_succ_of_dvd (bs : List Byte) (h : Word) (k : Nat) (whole : k % 8 = 0) :
    absorbBlocks bs h ((k + 8) / 8) = combine (absorbBlocks bs h (k / 8)) (le64 ((bs.drop k).take 8)) := by
  rw [Nat.add_div_right k (by omega), absorbBlocks, show 8 * (k / 8) = k by omega]

/-- With bytes left the hash so far is over the full blocks only (R116). -/
theorem partialHash_of_lt (bs : List Byte) (seed : Word) (k : Nat) (left : k < bs.length) :
    partialHash bs seed k = absorbBlocks bs (initAcc seed (BitVec.ofNat 64 bs.length)) (k / 8) := by
  rw [partialHash, if_neg (Nat.ne_of_lt left)]

/-- At a whole number of blocks the hash so far is over those blocks, at the end of the bytes too: there is no tail there
(R117). -/
theorem partialHash_of_whole (bs : List Byte) (seed : Word) (k : Nat) (whole : k % 8 = 0) :
    partialHash bs seed k = absorbBlocks bs (initAcc seed (BitVec.ofNat 64 bs.length)) (k / 8) := by
  unfold partialHash
  split_ifs with done
  · rw [absorbTail, if_pos (done ▸ whole), done]
  · rfl

/-- At the end of bytes that leave a tail, the tail has gone through one more combine (R117). -/
theorem partialHash_of_tail (bs : List Byte) (seed : Word) (tail : bs.length % 8 ≠ 0) :
    partialHash bs seed bs.length =
      combine (absorbBlocks bs (initAcc seed (BitVec.ofNat 64 bs.length)) (bs.length / 8))
        (le64 (bs.drop (8 * (bs.length / 8)))) := by
  rw [partialHash, if_pos rfl, absorbTail, if_neg tail]

@[simp] theorem partialHash_zero (bs : List Byte) (seed : Word) :
    partialHash bs seed 0 = initAcc seed (BitVec.ofNat 64 bs.length) := by
  rw [partialHash_of_whole bs seed 0 rfl]
  rfl

/-- The engine's next block, full or the tail, takes the hash so far one combine on (R121). -/
theorem partialHash_add_block (bs : List Byte) (seed : Word) (k : Nat) (whole : k % 8 = 0) (left : k < bs.length) :
    partialHash bs seed (k + min (bs.length - k) 8) =
      combine (partialHash bs seed k) (le64 ((bs.drop k).take (min (bs.length - k) 8))) := by
  rw [partialHash_of_lt bs seed k left]
  obtain full | tail := le_or_gt 8 (bs.length - k)
  · rw [Nat.min_eq_right full, partialHash_of_whole bs seed (k + 8) (by omega), absorbBlocks_succ_of_dvd _ _ _ whole]
  · rw [Nat.min_eq_left (by omega), show k + (bs.length - k) = bs.length by omega,
      partialHash_of_tail bs seed (by omega), show bs.length / 8 = k / 8 by omega, show 8 * (k / 8) = k by omega,
      List.take_of_length_le (by simp)]

@[simp] theorem buffer_length (s : State) : (buffer s).length = s.latch.len.toNat := by
  simp [buffer]

/-- The buffer looks at the memory and the latched range only. -/
theorem buffer_congr {s t : State} (hl : t.latch = s.latch)
    (hm : ∀ i < s.latch.len.toNat,
      t.mem.read (byteAddress s.latch.addr i) = s.mem.read (byteAddress s.latch.addr i)) :
    buffer t = buffer s := by
  rw [buffer, buffer, hl]
  exact State.bytesAt_congr t s _ _ _ hm

/-- Every byte of a legal range lies in it as an address (R60, R115). -/
theorem inRange_byteAddress {a l : Word} (legal : rangeWraps a l = false) {i : Nat} (hi : i < l.toNat) :
    inRange a l (byteAddress a i) = true := by
  have fits : a.toNat + l.toNat ≤ 2 ^ 64 := by
    obtain rfl | h := (rangeWraps_eq_false a l).1 legal
    · simp at hi
    · exact h
  rw [byteAddress_eq a i (by omega), inRange_iff]
  omega

/-- An idle block has no operation to speak of. -/
theorem OperationInv.of_idle {t : State} (idle : t.busy = false) : OperationInv t := by
  constructor <;> simp [idle]

/-- The invariant passes to a state where the operation stands as before, whose buffer reads the same, and where no store
into the range waits. -/
theorem OperationInv.congr {s t : State} (h : OperationInv s) (opk : t.blk.opk = s.blk.opk) (acc : t.blk.acc = s.blk.acc)
    (ptr : t.blk.ptr = s.blk.ptr) (rem : t.blk.rem = s.blk.rem) (latch : t.latch = s.latch)
    (bytes : s.busy = true → buffer t = buffer s)
    (stores : s.busy = true → t.storePending s.latch.addr s.latch.len = false) : OperationInv t := by
  have busy : t.busy = s.busy := by simp [State.busy_eq, opk]
  constructor <;> rw [busy] <;> intro hb <;> rw [latch]
  · exact h.rangeLegal hb
  · exact rem ▸ h.remLeLen hb
  · rw [ptr, rem]
    exact h.ptrAt hb
  · exact rem ▸ h.wholeBlocks hb
  · rw [acc, rem, bytes hb]
    exact h.accAt hb
  · exact stores hb

/-- The invariant looks at the block, the latch, the memory and the waiting stores only. -/
theorem OperationInv.congr_same {s t : State} (h : OperationInv s) (blk : t.blk = s.blk) (latch : t.latch = s.latch)
    (mem : t.mem = s.mem) (stores : t.stores = s.stores) : OperationInv t :=
  h.congr (by rw [blk]) (by rw [blk]) (by rw [blk]) (by rw [blk]) latch
    (fun _ => buffer_congr latch fun _ _ => by rw [mem]) fun hb => by
      rw [State.storePending, stores]
      exact h.noStorePending hb

/-- Of the block the invariant looks at OPK, ACC, PTR and REM only. -/
theorem OperationInv.of_setBlk {s : State} (h : OperationInv s) {b : Block} (opk : b.opk = s.blk.opk)
    (acc : b.acc = s.blk.acc) (ptr : b.ptr = s.blk.ptr) (rem : b.rem = s.blk.rem) : OperationInv (s.setBlk b) :=
  h.congr opk acc ptr rem rfl (fun _ => rfl) h.noStorePending

/-- No waiting store is to a byte of the buffer. -/
theorem OperationInv.store_ne_byte {s : State} (h : OperationInv s) (hb : s.busy = true) {c : Host.Cell}
    (hc : c ∈ s.stores) {i : Nat} (hi : i < s.latch.len.toNat) : c.1 ≠ byteAddress s.latch.addr i := by
  intro e
  have inside := inRange_byteAddress (h.rangeLegal hb) hi
  rw [← e, (s.storePending_eq_false _ _).1 (h.noStorePending hb) c hc] at inside
  cases inside

/-- A store of the host waits outside the borrowed range (R73). -/
theorem OperationInv.of_store {s : State} (h : OperationInv s) (c : Host.Cell) (free : s.borrowed c.1 = false) :
    OperationInv (s.setStores (s.stores ++ [c])) :=
  h.congr rfl rfl rfl rfl rfl (fun _ => rfl) fun hb => by
    have outside : inRange s.latch.addr s.latch.len c.1 = false := by simpa [State.borrowed, hb] using free
    have waiting := (s.storePending_eq_false _ _).1 (h.noStorePending hb)
    refine (State.storePending_eq_false _ _ _).2 fun d hd => ?_
    obtain hd | rfl : d ∈ s.stores ∨ d = c := by simpa using hd
    · exact waiting d hd
    · exact outside

/-- Waiting stores that become visible change no byte of the buffer (R69, R198). -/
theorem OperationInv.of_visible {s : State} (h : OperationInv s) (cs ds : List Host.Cell) (split : s.stores = cs ++ ds) :
    OperationInv ((s.setMem (s.mem.writeAll cs)).setStores ds) :=
  h.congr rfl rfl rfl rfl rfl
    (fun hb => buffer_congr rfl fun i hi => Memory.read_writeAll_other s.mem cs _ fun c hc =>
      h.store_ne_byte hb (by simp [split, hc]) hi)
    fun hb => by
      have waiting := (s.storePending_eq_false _ _).1 (h.noStorePending hb)
      exact (State.storePending_eq_false _ _ _).2 fun d hd => waiting d (by simpa [split] using .inr hd)

/-- An operation just started stands at the first byte with ACC as R112 has it (R114). -/
theorem OperationInv.of_started {t : State} (legal : rangeWraps t.latch.addr t.latch.len = false)
    (visible : t.storePending t.latch.addr t.latch.len = false) (acc : t.blk.acc = initAcc t.latch.seed t.latch.len)
    (ptr : t.blk.ptr = t.latch.addr) (rem : t.blk.rem = t.latch.len) : OperationInv t where
  rangeLegal _ := legal
  remLeLen _ := by rw [rem]
  ptrAt _ := by simp [ptr, rem]
  wholeBlocks _ _ := by simp [rem]
  accAt _ := by simp [acc, rem]
  noStorePending _ := visible

/-- A CMD write starts an operation, or leaves the one in progress as it is (R114, R156). -/
theorem OperationInv.of_cmdOutcome {w : Word} {s t : State} (h : OperationInv s) (out : CmdOutcome w s t) :
    OperationInv t := by
  cases out with
  | command i _ out =>
    cases out with
    | overrun _ e => exact e ▸ h.of_setBlk rfl rfl rfl rfl
    | clrstat idle _ e => exact .of_idle (by simpa [e, State.busy_eq] using idle)
    | addrRange _ _ _ e => exact .of_idle (by simp [e, State.busy_eq])
    | started _ _ legal visible e => subst e; exact .of_started legal visible rfl rfl rfl
  | overrun _ e => exact e ▸ h.of_setBlk rfl rfl rfl rfl
  | illegal _ _ _ e => exact .of_idle (by simp [e, State.busy_eq])

/-- No operation of the host moves the engine or changes the buffer. -/
theorem OperationInv.of_hostOutcome {op : HostOp} {s t : State} (h : OperationInv s) (out : HostOutcome s t op) :
    OperationInv t := by
  cases out with
  | read _ off _ e => exact e ▸ h.congr_same rfl rfl rfl rfl
  | cmd _ out => exact h.of_cmdOutcome out
  | write _ off w _ _ e =>
    obtain ⟨opk, acc, ptr, rem, -⟩ := s.blk.writeReg_keeps w (Reg.atOffset off)
    exact e ▸ h.of_setBlk opk acc ptr rem
  | store a b _ free e => exact e ▸ h.of_store (a.toNat, b) free
  | fence _ e => exact e ▸ h.of_visible s.stores [] (by simp)
  | wait e => exact e ▸ h.congr_same (by simp) (by simp) (by simp) (by simp)

/-- The block at PTR is the next of the buffer's. -/
theorem OperationInv.bytesAt_ptr {s : State} (h : OperationInv s) (hb : s.busy = true) :
    s.bytesAt s.blk.ptr s.blk.blockSize =
      ((buffer s).drop (s.latch.len.toNat - s.blk.rem.toNat)).take s.blk.blockSize := by
  have le := h.remLeLen hb
  have ptr : s.blk.ptr = s.latch.addr + BitVec.ofNat 64 (s.latch.len.toNat - s.blk.rem.toNat) := by
    rw [h.ptrAt hb, ← BitVec.toNat_sub_of_le (BitVec.le_def.2 le), BitVec.ofNat_toNat, BitVec.setWidth_eq]
  rw [buffer, State.bytesAt_drop, State.bytesAt_take, ← ptr, Block.blockSize]
  congr 1
  omega

/-- ACC after the next block is the hash of the bytes read with it (R121). -/
theorem OperationInv.acc_compress {s : State} (h : OperationInv s) (hb : s.busy = true) (left : s.blk.rem ≠ 0) :
    combine s.blk.acc (le64 (s.bytesAt s.blk.ptr s.blk.blockSize)) =
      partialHash (buffer s) s.latch.seed (s.latch.len.toNat - (s.blk.rem.toNat - s.blk.blockSize)) := by
  have le := h.remLeLen hb
  have pos : s.blk.rem.toNat ≠ 0 := fun e => left (BitVec.eq_of_toNat_eq e)
  have size : s.blk.blockSize = min ((buffer s).length - (s.latch.len.toNat - s.blk.rem.toNat)) 8 := by
    rw [Block.blockSize, buffer_length]
    omega
  rw [h.bytesAt_ptr hb, h.accAt hb,
    show s.latch.len.toNat - (s.blk.rem.toNat - s.blk.blockSize) =
      s.latch.len.toNat - s.blk.rem.toNat + s.blk.blockSize by rw [Block.blockSize]; omega, size]
  exact (partialHash_add_block _ _ _ (h.wholeBlocks hb left) (by rw [buffer_length]; omega)).symm

/-- Absorbing a block keeps the invariant: PTR, REM and ACC move on by that block, and only a full block leaves bytes
(R121). -/
theorem OperationInv.of_compress {s : State} (h : OperationInv s) (hb : s.busy = true) (left : s.blk.rem ≠ 0) :
    OperationInv (s.setBlk (s.blk.compress s.blk.blockSize (le64 (s.bytesAt s.blk.ptr s.blk.blockSize)))) where
  rangeLegal _ := h.rangeLegal hb
  remLeLen _ := by
    simp only [State.setBlk_blk, State.setBlk_latch, Block.compress_rem_toNat]
    exact (Nat.sub_le _ _).trans (h.remLeLen hb)
  ptrAt _ := by
    simp only [State.setBlk_blk, State.setBlk_latch, Block.compress_rem, Block.compress_ptr, h.ptrAt hb]
    ring
  wholeBlocks _ more := by
    have whole := h.wholeBlocks hb left
    have le := h.remLeLen hb
    have size : s.blk.blockSize = min s.blk.rem.toNat 8 := rfl
    have more : s.blk.rem.toNat - s.blk.blockSize ≠ 0 :=
      fun e => more (BitVec.eq_of_toNat_eq ((s.blk.compress_rem_toNat _).trans e))
    simp only [State.setBlk_blk, State.setBlk_latch, Block.compress_rem_toNat]
    omega
  accAt _ := by
    simp only [State.setBlk_blk, State.setBlk_latch, Block.compress_acc, Block.compress_rem_toNat]
    exact h.acc_compress hb left
  noStorePending _ := h.noStorePending hb

/-- The engine absorbs a block, or stands still, or ends the operation (R120). -/
theorem OperationInv.of_engineOutcome {s t : State} (h : OperationInv s) (out : EngineOutcome s t) : OperationInv t := by
  cases out with
  | idle _ e => exact e ▸ h
  | finished _ _ e => exact .of_idle (by simp [e, State.busy_eq])
  | stuck _ _ _ _ e => exact e ▸ h
  | compressed busy size _ _ _ e => exact e ▸ h.of_compress busy (mt s.blk.blockSize_eq_zero_iff.2 size)
  | busError _ _ _ _ _ e => exact .of_idle (by simp [e, State.busy_eq])

end Sys2Proof.Safety

namespace Sys2Proof.Proofs

open Sys2Proof.Machine Sys2Proof.Safety

/-- Settles O55: the engine moves PTR, REM and ACC on by one block, and no other agent reaches the latched range. -/
theorem stepKeepsOperationInvariant : Obligations.StepKeepsOperationInvariant := by
  intro s t h hstep
  have taken : OperationInv s.takeTurn :=
    h.congr_same (by simp) (by simp) (by simp) (by simp)
  cases step_next s t hstep with
  | hostIdle _ _ e => exact e ▸ taken
  | host _ op ops _ out =>
    exact (taken.congr_same (t := s.takeTurn.setHost ops) rfl rfl rfl rfl).of_hostOutcome out
  | engine _ out => exact taken.of_engineOutcome out
  | memoryIdle _ _ e => exact e ▸ taken
  | memory _ c cs next _ e =>
    rw [e, ← s.takeTurn_mem]
    exact taken.of_visible [c] cs (by simpa using next)
  | reset _ e => exact .of_idle (by rw [e]; rfl)

end Sys2Proof.Proofs
end

section
/-! Buffer memory (20_memory.md R60–R73): the block read's bytes, what the engine asks for and when that is refused, and which
step makes a host's store visible or refuses it. -/

namespace Sys2Proof.Machine

theorem byte_lt_of_mem_map {bs : List Byte} {d : Nat} (hd : d ∈ bs.map BitVec.toNat) : d < 256 := by
  obtain ⟨b, -, rfl⟩ := List.mem_map.1 hd
  exact b.isLt

/-- Bytes as digits to base 256 give a number of as many bytes. -/
theorem ofDigits_bytes_lt (bs : List Byte) : Nat.ofDigits 256 (bs.map BitVec.toNat) < 2 ^ (8 * bs.length) := by
  have bound := Nat.ofDigits_lt_base_pow_length (b := 256) (by decide) fun d hd => byte_lt_of_mem_map (bs := bs) hd
  rwa [List.length_map, show 256 = 2 ^ 8 from rfl, ← Nat.pow_mul] at bound

/-- LE64 is the number whose digits to base 256 are the bytes (R61). -/
theorem le64_toNat (bs : List Byte) (h : bs.length ≤ 8) : (le64 bs).toNat = Nat.ofDigits 256 (bs.map BitVec.toNat) := by
  induction bs with
  | nil => rfl
  | cons b bs ih =>
    have short : 8 * bs.length ≤ 56 := by
      rw [List.length_cons] at h
      omega
    have bound := (ofDigits_bytes_lt bs).trans_le (Nat.pow_le_pow_right (by decide) short)
    have := b.isLt
    rw [le64, BitVec.toNat_add, BitVec.toNat_shiftLeft, BitVec.toNat_setWidth, ih (by omega), List.map_cons,
      Nat.ofDigits_cons, Nat.shiftLeft_eq]
    omega

/-- The bits above the bytes are 0 (R61). -/
theorem le64_toNat_lt (bs : List Byte) (h : bs.length ≤ 8) : (le64 bs).toNat < 2 ^ (8 * bs.length) :=
  le64_toNat bs h ▸ ofDigits_bytes_lt bs

/-- The byte at offset i stands in bits [8i+7:8i] (R61). -/
theorem le64_extractLsb' (bs : List Byte) (h : bs.length ≤ 8) (i : Nat) (hi : i < bs.length) :
    (le64 bs).extractLsb' (8 * i) 8 = bs[i] := by
  refine BitVec.eq_of_toNat_eq ?_
  have := (bs[i]).isLt
  rw [BitVec.extractLsb'_toNat, le64_toNat bs h, Nat.shiftRight_eq_div_pow, Nat.pow_mul,
    Nat.ofDigits_div_pow_eq_ofDigits_drop i (by decide) _ fun d => byte_lt_of_mem_map, ← List.map_drop,
    List.drop_eq_getElem_cons hi, List.map_cons, Nat.ofDigits_cons]
  omega

@[simp] theorem State.bytesAt_getElem (s : State) (a : Word) (n i : Nat) (hi : i < (s.bytesAt a n).length) :
    (s.bytesAt a n)[i] = s.mem.read (byteAddress a i) := by
  simp [State.bytesAt]

/-- A block with an unreadable byte is a bus error (R62). -/
theorem State.memRead_of_unreadable (s : State) (a : Word) (n i : Nat) (hi : i < n)
    (h : s.plat.readableAt (byteAddress a i) = false) : s.memRead a n = .busError := by
  have unreadable : s.blockReadable a n = false := by
    simp only [State.blockReadable, List.all_eq_false, List.mem_range]
    exact ⟨i, hi, by simp [h]⟩
  simp [State.memRead, unreadable]

/-- What the memory read port asks for: the next block at PTR, while bytes are left (R29, R120). -/
theorem Block.memRequest_eq_some {b : Block} {p : Word} {n : Nat} (h : b.memRequest = some (p, n)) :
    b.busy = true ∧ n ≠ 0 ∧ p = b.ptr ∧ n = b.blockSize := by
  unfold Block.memRequest at h
  split_ifs at h with asks
  obtain ⟨busy, size⟩ : b.busy = true ∧ b.blockSize ≠ 0 := by simpa using asks
  cases h
  exact ⟨busy, size, rfl, rfl⟩

/-- Reading a byte has side effects in the own window and in the other regions the platform names (R66). -/
theorem Platform.deviceAt_iff (p : Platform) (a : Nat) :
    p.deviceAt a = true ↔ ∃ r ∈ p.ownWindow ++ p.sideEffect, r.lo ≤ a ∧ a ≤ r.hi := by
  simp [Platform.deviceAt, Platform.inWindow, Region.anyHolds, or_and_right, exists_or]

/-- A block with a device's byte has no meaning, whatever else holds of it (R66, R196). -/
theorem engineStep_of_device (s : State) (hb : s.busy = true) (i : Nat) (hi : i < s.blk.blockSize)
    (h : s.plat.deviceAt (byteAddress s.blk.ptr i) = true) : engineStep s = .refused .deviceRead := by
  have device : s.blockDevice s.blk.ptr s.blk.blockSize = true := by
    simp only [State.blockDevice, List.any_eq_true, List.mem_range]
    exact ⟨i, hi, h⟩
  rw [engineStep, if_neg (by simp [hb]), if_neg (by omega), if_pos device]

theorem State.busy_iff (s : State) : s.busy = true ↔ s.blk.opk ≠ .idle := by
  simp [State.busy_eq]

theorem State.borrowed_iff (s : State) (x : Nat) :
    s.borrowed x = true ↔ s.blk.opk ≠ .idle ∧ s.latch.addr.toNat ≤ x ∧ x < s.latch.addr.toNat + s.latch.len.toNat := by
  rw [State.borrowed, Bool.and_eq_true, State.busy_iff, inRange_iff]

theorem State.borrowed_eq_false (s : State) (x : Nat) :
    s.borrowed x = false ↔
      s.blk.opk = .idle ∨ ¬(s.latch.addr.toNat ≤ x ∧ x < s.latch.addr.toNat + s.latch.len.toNat) := by
  rw [← Bool.not_eq_true, State.borrowed_iff, not_and_or, not_not]

theorem storeStep_of_inWindow (s : State) (a : Word) (b : Byte) (h : s.plat.inWindow a.toNat = true) :
    storeStep a b s = .refused .notAdmitted := by
  rw [storeStep, if_pos h]

theorem storeStep_of_borrowed (s : State) (a : Word) (b : Byte) (outside : s.plat.inWindow a.toNat = false)
    (h : s.borrowed a.toNat = true) : storeStep a b s = .refused .bufferWritten := by
  rw [storeStep, if_neg (by simp [outside]), if_pos h]

theorem storeStep_of_free (s : State) (a : Word) (b : Byte) (outside : s.plat.inWindow a.toNat = false)
    (h : s.borrowed a.toNat = false) : storeStep a b s = .next (s.setStores (s.stores ++ [(a.toNat, b)])) := by
  rw [storeStep, if_neg (by simp [outside]), if_neg (by simp [h])]

theorem fenceStep_of_borrowed (s : State) (c : Host.Cell) (hc : c ∈ s.stores) (h : s.borrowed c.1 = true) :
    fenceStep s = .refused .bufferWritten := by
  rw [fenceStep, if_pos (List.any_eq_true.2 ⟨c, hc, h⟩)]

theorem fenceStep_of_free (s : State) (h : ∀ c ∈ s.stores, s.borrowed c.1 = false) :
    fenceStep s = .next ((s.setMem (s.mem.writeAll s.stores)).setStores []) := by
  rw [fenceStep, if_neg (by simpa using h)]

theorem memoryStep_of_nil (s : State) (h : s.stores = []) : memoryStep s = .next s := by
  simp [memoryStep, h]

theorem memoryStep_of_borrowed (s : State) (c : Host.Cell) (cs : List Host.Cell) (hs : s.stores = c :: cs)
    (h : s.borrowed c.1 = true) : memoryStep s = .refused .bufferWritten := by
  simp [memoryStep, hs, h]

theorem memoryStep_of_free (s : State) (c : Host.Cell) (cs : List Host.Cell) (hs : s.stores = c :: cs)
    (h : s.borrowed c.1 = false) : memoryStep s = .next ((s.setMem (s.mem.write c.1 c.2)).setStores cs) := by
  simp [memoryStep, hs, h]

theorem cmdWrite_of_decode {w : Word} {i : Instr} (h : decode w = .ok i) (s : State) : cmdWrite w s = exec i s := by
  simp [cmdWrite, h]

theorem hostOp_write_cmd (w : Word) (s : State) : hostOp (.write 64 0x08 w) s = cmdWrite w s := rfl

theorem decode_of_decodeTableWord {nbits w : Nat} {i : Instr} (h : decodeTableWord nbits w = some i) :
    decode (BitVec.ofNat 64 (w % 2 ^ nbits)) = .ok i := by
  unfold decodeTableWord at h
  cases hd : decode (BitVec.ofNat 64 (w % 2 ^ nbits)) with
  | ok j =>
    rw [hd] at h
    exact congrArg _ (Option.some.inj h)
  | error e =>
    rw [hd] at h
    cases h

/-- The host's turn with a CMD write as its next operation runs the decoded command (R72, R153). -/
theorem step_of_cmd_write (s : State) (rest : List HostOp) (ts : List Turn) (w : Word) (i : Instr)
    (turns : s.turns = .host :: ts) (host : s.host = .write 64 0x08 w :: rest) (decoded : decode w = .ok i) :
    step s = exec i { s with turns := ts, host := rest } := by
  rw [step_of_turns_cons s .host ts turns]
  calc hostStep { s with turns := ts }
    _ = hostOp (.write 64 0x08 w) { s with turns := ts, host := rest } := hostStep_of_cons _ _ rest host
    _ = exec i { s with turns := ts, host := rest } := by rw [hostOp_write_cmd, cmdWrite_of_decode decoded]

/-- No operation of the host changes the platform (log entry 2). -/
theorem HostOutcome.plat {op : HostOp} {s t : State} (h : HostOutcome s t op) : t.plat = s.plat := by
  cases h with
  | read _ _ _ e => simp [e, regRead]
  | cmd _ out =>
    obtain ⟨b, l, rfl⟩ := out.only_blk_latch
    rfl
  | write _ _ _ _ _ e => simp [e]
  | store _ _ _ _ e => simp [e]
  | fence _ e => simp [e]
  | wait e => simp [e]

/-- Of the host's operations the fence alone changes memory (log entry 5). -/
theorem HostOutcome.mem {op : HostOp} {s t : State} (h : HostOutcome s t op) :
    t.mem = s.mem ∨ (op = .fence ∧ (∀ c ∈ s.stores, s.borrowed c.1 = false) ∧ t.mem = s.mem.writeAll s.stores) := by
  cases h with
  | read _ _ _ e => exact .inl (by simp [e, regRead])
  | cmd _ out =>
    obtain ⟨b, l, rfl⟩ := out.only_blk_latch
    exact .inl rfl
  | write _ _ _ _ _ e => exact .inl (by simp [e])
  | store _ _ _ _ e => exact .inl (by simp [e])
  | fence free e => exact .inr ⟨rfl, free, by simp [e]⟩
  | wait e => exact .inl (by simp [e])

/-- No step changes the platform (log entry 2). -/
theorem StepOutcome.plat {s t : State} (h : StepOutcome s t) : t.plat = s.plat := by
  cases h with
  | hostIdle _ _ e => simp [e]
  | host _ _ _ _ out => simpa using out.plat
  | engine _ out =>
    obtain ⟨b, rfl⟩ := out.only_blk
    simp
  | memoryIdle _ _ e => simp [e]
  | memory _ _ _ _ _ e => simp [e]
  | reset _ e => simp [e]

/-- The stores `cs` may become visible in one step from `s`: they wait and none is to a borrowed byte, and where there is one,
the step is the memory agent's or the host's fence (R73, R198; log entry 5). -/
structure MayBecomeVisible (s : State) (cs : List Host.Cell) : Prop where
  waiting : ∀ c ∈ cs, c ∈ s.stores
  free : ∀ c ∈ cs, s.borrowed c.1 = false
  turn : cs = [] ∨ s.turn = .memory ∨ (s.turn = .host ∧ ∃ ops : List HostOp, s.host = .fence :: ops)

/-- A step changes memory only by such stores (R60). -/
theorem StepOutcome.mem {s t : State} (h : StepOutcome s t) :
    ∃ cs : List Host.Cell, MayBecomeVisible s cs ∧ t.mem = s.mem.writeAll cs := by
  have unchanged (same : t.mem = s.mem) : ∃ cs : List Host.Cell, MayBecomeVisible s cs ∧ t.mem = s.mem.writeAll cs :=
    ⟨[], ⟨by simp, by simp, .inl rfl⟩, same⟩
  cases h with
  | hostIdle _ _ e => exact unchanged (by simp [e])
  | host turn op ops next out =>
    obtain same | ⟨rfl, free, written⟩ := out.mem
    · exact unchanged (by simpa using same)
    · have free : ∀ c ∈ s.stores, s.borrowed c.1 = false := by simpa [State.borrowed, State.busy] using free
      exact ⟨s.stores, ⟨fun _ hc => hc, free, .inr (.inr ⟨turn, ops, next⟩)⟩, by simpa using written⟩
  | engine _ out =>
    obtain ⟨b, rfl⟩ := out.only_blk
    exact unchanged (by simp)
  | memoryIdle _ _ e => exact unchanged (by simp [e])
  | memory turn c cs next free e => 
    exact ⟨[c], ⟨by simp [next], by simp [free], .inr (.inl turn)⟩, by simp [e, Memory.writeAll]⟩
  | reset _ e => exact unchanged (by simp [e])

end Sys2Proof.Machine

namespace Sys2Proof.Safety

open Sys2Proof.Machine

/-- PTR is the latched address and the bytes read so far (R24, R25). -/
theorem OperationInv.ptr_eq_add_ofNat {s : State} (h : OperationInv s) (hb : s.busy = true) :
    s.blk.ptr = s.latch.addr + BitVec.ofNat 64 (s.latch.len.toNat - s.blk.rem.toNat) := by
  rw [h.ptrAt hb, ← BitVec.toNat_sub_of_le (BitVec.le_def.2 (h.remLeLen hb)), BitVec.ofNat_toNat, BitVec.setWidth_eq]

/-- Every byte of the next block lies in the latched range (R60, R64). -/
theorem OperationInv.inRange_block {s : State} (h : OperationInv s) (hb : s.busy = true) {i : Nat}
    (hi : i < s.blk.blockSize) : inRange s.latch.addr s.latch.len (byteAddress s.blk.ptr i) = true := by
  have le := h.remLeLen hb
  rw [Block.blockSize] at hi
  rw [h.ptr_eq_add_ofNat hb, byteAddress_add]
  exact inRange_byteAddress (h.rangeLegal hb) (by omega)

/-- The next block is a full one, or the tail of the latched length (R64, R120). -/
theorem OperationInv.blockSize_eq {s : State} (h : OperationInv s) (hb : s.busy = true) (left : s.blk.rem ≠ 0) :
    s.blk.blockSize = 8 ∨
      (s.blk.blockSize = s.latch.len.toNat % 8 ∧ s.blk.blockSize = s.blk.rem.toNat) := by
  have le := h.remLeLen hb
  have whole := h.wholeBlocks hb left
  rw [Block.blockSize]
  omega

/-- After a fence each byte is the youngest waiting store's to it, or as before (R70). -/
theorem MemoryInv.fence_visible {s : State} (h : MemoryInv s) (free : ∀ c ∈ s.stores, s.borrowed c.1 = false) :
    ∃ m : Memory, hostOp .fence s = .next { s with mem := m, stores := [] } ∧
      ∀ x : Nat, m.read x = s.stores.foldl (fun v c => if c.1 = x then c.2 else v) (s.mem.read x) :=
  ⟨s.mem.writeAll s.stores, fenceStep_of_free s free, fun x => Memory.read_writeAll _ _ x h.memWf h.storesInSpace⟩

end Sys2Proof.Safety

namespace Sys2Proof.Proofs

open Sys2Proof.Machine Sys2Proof.Safety

/-- Settles O23: LE64's digits to base 256 are the bytes read. -/
theorem blockReadIsLittleEndian : Obligations.BlockReadIsLittleEndian := by
  intro s a n _ short
  have short : (s.bytesAt a n).length ≤ 8 := by simpa using short
  refine ⟨fun readable => ⟨le64 (s.bytesAt a n), s.memRead_of_ok a n readable, fun i hi => ?_, ?_⟩,
    fun ⟨i, hi, unreadable⟩ => s.memRead_of_unreadable a n i hi unreadable⟩
  · rw [le64_extractLsb' _ short i (by simpa using hi), State.bytesAt_getElem]
  · simpa using le64_toNat_lt _ short

/-- Settles O30: PTR and REM say where in the latched range the next block is, and only the last block is short. -/
theorem engineReadsOnlyTheBuffer : Obligations.EngineReadsOnlyTheBuffer := by
  intro s p n inv request
  obtain ⟨busy, size, rfl, rfl⟩ := Block.memRequest_eq_some request
  exact ⟨Nat.one_le_iff_ne_zero.2 size, inv.blockSize_eq busy (mt s.blk.blockSize_eq_zero_iff.2 size),
    fun i hi => (inRange_iff _ _ _).1 (inv.inRange_block busy hi)⟩

/-- Settles O40: the composition is the fence's clause at the state the store leaves, whose one waiting store is the
host's. -/
theorem fenceMakesStoreVisible : Obligations.FenceMakesStoreVisible := by
  refine ⟨fun s a b inv noneWaits idle outside => ?_,
    fun s a b outside free => storeStep_of_free s a b outside ((s.borrowed_eq_false _).2 free),
    fun s inv free => inv.fence_visible fun c hc => (s.borrowed_eq_false _).2 (free c hc)⟩
  have free (x : Nat) : s.borrowed x = false := by simp [State.borrowed, idle]
  have stored : MemoryInv (s.setStores (s.stores ++ [(a.toNat, b)])) :=
    inv.of_hostOutcome (.store a b outside (free a.toNat) rfl)
  obtain ⟨m, fenced, read⟩ := stored.fence_visible fun c _ => free c.1
  refine ⟨_, _, storeStep_of_free s a b outside (free _), rfl, fenced, rfl, rfl, ?_, fun x other => ?_⟩
  · simpa [noneWaits] using read a.toNat
  · simpa [noneWaits, Ne.symm other] using read x

/-- Settles O42: the stores that a step makes visible are to bytes that are not borrowed. -/
theorem bufferStableWhileBusy : Obligations.BufferStableWhileBusy := by
  intro s t busy hstep x low high
  obtain ⟨cs, visible, mem⟩ := (step_next s t hstep).mem
  have borrowed : s.borrowed x = true := (s.borrowed_iff x).2 ⟨s.busy_iff.1 busy, low, high⟩
  rw [mem]
  refine Memory.read_writeAll_other s.mem cs x fun c hc e => ?_
  have free := visible.free c hc
  rw [e, borrowed] at free
  cases free

/-- Settles O43: memory after a step is memory with some waiting stores written, none outside the two steps. -/
theorem onlyHostStoresChangeMemory : Obligations.OnlyHostStoresChangeMemory := by
  intro s t hstep
  have out := step_next s t hstep
  obtain ⟨cs, visible, mem⟩ := out.mem
  refine ⟨out.plat, fun changed => visible.turn.resolve_left ?_, fun x changed => ?_⟩
  · rintro rfl
    exact changed mem
  · by_contra never
    exact changed (mem ▸ Memory.read_writeAll_other s.mem cs x fun c hc e => never ⟨c, visible.waiting c hc, e⟩)

/-- Settles O4: the host's operation is a CMD write, which runs the command its word decodes to. -/
theorem stepRunsQueuedCommand : Obligations.StepRunsQueuedCommand := step_of_cmd_write

/-- Settles O5: the placed word is the CMD write at the head of the host's operations, in the host's turn. -/
theorem fetchWordRunsTheCommand : Obligations.FetchWordRunsTheCommand := fun s nbits w i h =>
  step_of_cmd_write (s.withFetchWord nbits w) s.host s.turns _ i rfl rfl (decode_of_decodeTableWord h)

/-- Settles O28: the device test comes before the memory's answer and the readable test. -/
theorem deviceReadHasNoMeaning : Obligations.DeviceReadHasNoMeaning := fun s i busy hi device =>
  engineStep_of_device s (s.busy_iff.2 busy) i hi ((s.plat.deviceAt_iff _).2 device)

/-- Settles O41: the byte is borrowed, or in the window. -/
theorem borrowedWriteHasNoMeaning : Obligations.BorrowedWriteHasNoMeaning :=
  ⟨fun s a b busy low high outside => storeStep_of_borrowed s a b outside ((s.borrowed_iff _).2 ⟨busy, low, high⟩),
    fun s c cs busy next low high => memoryStep_of_borrowed s c cs next ((s.borrowed_iff _).2 ⟨busy, low, high⟩),
    fun s c busy hc low high => fenceStep_of_borrowed s c hc ((s.borrowed_iff _).2 ⟨busy, low, high⟩),
    storeStep_of_inWindow⟩

/-- Settles O60: the oldest store is one write of memory in canonical form. -/
theorem memoryTurnShowsOldestStore : Obligations.MemoryTurnShowsOldestStore :=
  ⟨fun s c cs inv next free =>
    ⟨s.mem.write c.1 c.2, memoryStep_of_free s c cs next ((s.borrowed_eq_false _).2 free),
      Memory.read_write_same s.mem c.1 c.2 inv.memWf, fun x other => Memory.read_write_other s.mem c.1 x c.2 other⟩,
    memoryStep_of_nil⟩

end Sys2Proof.Proofs
end

section
/-! The command words as numbers: the words of the commands, the well-formed words and the classes of illegal words
(30_encoding.md R80–R85). -/

namespace Sys2Proof

theorem CmdWord.op_toNat (w : Word) : (CmdWord.op w).toNat = w.toNat % 2 ^ 8 := by
  rw [CmdWord.op, BitVec.extractLsb'_toNat, Nat.shiftRight_zero]

theorem CmdWord.rsvdZero_iff (w : Word) : CmdWord.rsvdZero w = true ↔ w.toNat < 2 ^ 8 := by
  have := w.isLt
  rw [CmdWord.rsvdZero, CmdWord.rsvd, beq_iff_eq, ← BitVec.toNat_inj, BitVec.extractLsb'_toNat, Nat.shiftRight_eq_div_pow,
    show (0 : BitVec 56).toNat = 0 from rfl]
  omega

/-- R82 lists the OPs 1, 2 and 3. -/
theorem CmdWord.opListed_iff (w : Word) :
    CmdWord.opListed w = true ↔ 1 ≤ (CmdWord.op w).toNat ∧ (CmdWord.op w).toNat ≤ 3 := by
  simp only [CmdWord.opListed, Bool.or_eq_true, beq_iff_eq, ← BitVec.toNat_inj, BitVec.ofNat_eq_ofNat, BitVec.toNat_ofNat]
  omega

theorem CmdWord.wf_iff (w : Word) : CmdWord.wf w = true ↔ 1 ≤ w.toNat ∧ w.toNat ≤ 3 := by
  rw [CmdWord.wf, Bool.and_eq_true, CmdWord.rsvdZero_iff, CmdWord.opListed_iff, CmdWord.op_toNat]
  omega

/-- The commands' words are the numbers 1, 2 and 3 (R82). -/
theorem exists_eq_encode_iff (w : Word) : (∃ i : Instr, w = encode i) ↔ 1 ≤ w.toNat ∧ w.toNat ≤ 3 := by
  constructor
  · rintro ⟨i, rfl⟩
    cases i <;> decide
  · intro h
    obtain h | h | h : w.toNat = 1 ∨ w.toNat = 2 ∨ w.toNat = 3 := by omega
    · exact ⟨.hash64, BitVec.eq_of_toNat_eq h⟩
    · exact ⟨.hash32, BitVec.eq_of_toNat_eq h⟩
    · exact ⟨.clrstat, BitVec.eq_of_toNat_eq h⟩

/-- The one word that decodes to a command is the command's (R83). -/
theorem decode_eq_ok_iff (w : Word) (i : Instr) : decode w = .ok i ↔ w = encode i := by
  constructor
  · intro h
    unfold decode at h
    split_ifs at h with h1 h2 h3 <;> cases h
    · exact h1
    · exact h2
    · exact h3
  · rintro rfl
    cases i <;> rfl

/-- The numbers of the words of each class of illegal word (R83, R85). -/
def DecodeError.HasNumber : DecodeError → Nat → Prop
  | .rsvdSet, n => 0x100 ≤ n
  | .opZero, n => n = 0
  | .opReserved, n => 0x04 ≤ n ∧ n ≤ 0x7F
  | .opCustom, n => 0x80 ≤ n ∧ n ≤ 0xFF

/-- No number is in two classes. -/
theorem DecodeError.HasNumber.unique {e f : DecodeError} {n : Nat} (he : e.HasNumber n) (hf : f.HasNumber n) : e = f := by
  cases e <;> cases f <;> simp only [DecodeError.HasNumber, reduceCtorEq] at he hf ⊢ <;> omega

/-- No command's number is in a class. -/
theorem DecodeError.HasNumber.not_listed {e : DecodeError} {n : Nat} (h : e.HasNumber n) : ¬(1 ≤ n ∧ n ≤ 3) := by
  cases e <;> simp only [DecodeError.HasNumber] at h <;> omega

/-- A word that is no command's has a number of its class. -/
theorem classifyIllegal_hasNumber (w : Word) (h : ¬(1 ≤ w.toNat ∧ w.toNat ≤ 3)) :
    (classifyIllegal w).HasNumber w.toNat := by
  have op := CmdWord.op_toNat w
  have op_eq_zero : CmdWord.op w = 0 ↔ (CmdWord.op w).toNat = 0 := BitVec.toNat_inj.symm
  have op_lt : CmdWord.op w < 0x80 ↔ (CmdWord.op w).toNat < 0x80 := BitVec.lt_def
  unfold classifyIllegal
  split_ifs with rsvd zero reserved <;> rw [← Bool.not_eq_true, CmdWord.rsvdZero_iff] at rsvd
  · show 0x100 ≤ w.toNat
    omega
  · show w.toNat = 0
    rw [op_eq_zero] at zero
    omega
  · show 0x04 ≤ w.toNat ∧ w.toNat ≤ 0x7F
    rw [op_eq_zero] at zero
    rw [op_lt] at reserved
    omega
  · show 0x80 ≤ w.toNat ∧ w.toNat ≤ 0xFF
    rw [op_lt] at reserved
    omega

theorem hasNumber_of_decode_eq_error {w : Word} {e : DecodeError} (h : decode w = .error e) : e.HasNumber w.toNat := by
  have notListed : ¬(1 ≤ w.toNat ∧ w.toNat ≤ 3) := by
    intro listed
    obtain ⟨i, hi⟩ := (exists_eq_encode_iff w).2 listed
    rw [(decode_eq_ok_iff w i).2 hi] at h
    cases h
  unfold decode at h
  split_ifs at h
  cases h
  exact classifyIllegal_hasNumber w notListed

/-- The class by which a word is refused is the one that has its number. -/
theorem decode_eq_error_iff (w : Word) (e : DecodeError) : decode w = .error e ↔ e.HasNumber w.toNat := by
  refine ⟨hasNumber_of_decode_eq_error, fun he => ?_⟩
  cases hd : decode w with
  | ok i => exact absurd ((exists_eq_encode_iff w).1 ⟨i, (decode_eq_ok_iff w i).1 hd⟩) he.not_listed
  | error f => rw [(hasNumber_of_decode_eq_error hd).unique he]

end Sys2Proof

namespace Sys2Proof.Proofs

/-- Settles O2: a word decodes to a command, and is well-formed, exactly when it is the command's word. -/
theorem decodeAndEncodeAgree : Obligations.DecodeAndEncodeAgree :=
  ⟨fun i => (decode_eq_ok_iff _ i).2 rfl, fun w i => (decode_eq_ok_iff w i).1, fun w => by
    simp only [CmdWord.wf_iff, decode_eq_ok_iff, exists_eq_encode_iff]⟩

/-- Settles O3: the classes' numbers are disjoint, and each illegal word has a number of its class. -/
theorem illegalWordClasses : Obligations.IllegalWordClasses := fun w =>
  ⟨decode_eq_error_iff w .rsvdSet, decode_eq_error_iff w .opZero, decode_eq_error_iff w .opReserved,
    decode_eq_error_iff w .opCustom⟩

/-- Settles O1: the words are literals, and decoding them is an evaluation. -/
theorem commandWordsOfTheTable : Obligations.CommandWordsOfTheTable := by
  unfold Obligations.CommandWordsOfTheTable
  decide

end Sys2Proof.Proofs
end

section
/-! What the commands leave unchanged (30_encoding.md R84), `wait` (R92), and the register window: the decode of its bus
addresses (R86) and steps on a platform with another REG_BASE (00_scope.md R9). -/

namespace Sys2Proof.Machine

/-- A command leaves the results, FAULT_ADDR, the operand registers and CTRL alone (R153). -/
theorem ExecOutcome.registers {i : Instr} {s t : State} (h : ExecOutcome i s t) :
    t.blk.result64 = s.blk.result64 ∧ t.blk.result32 = s.blk.result32 ∧ t.blk.faultAddr = s.blk.faultAddr ∧
    t.blk.seed = s.blk.seed ∧ t.blk.addr = s.blk.addr ∧ t.blk.len = s.blk.len ∧
    t.blk.doneIe = s.blk.doneIe ∧ t.blk.errIe = s.blk.errIe := by
  cases h with
  | overrun _ e => simp [e]
  | clrstat _ _ e => simp [e]
  | addrRange _ _ _ e => simp [e]
  | started _ _ _ _ e => simp [e]

/-- CLRSTAT, or any command while BUSY = 1, leaves the operation alone (R150, R156). -/
theorem ExecOutcome.operation {i : Instr} {s t : State} (h : ExecOutcome i s t) (quiet : i = .clrstat ∨ s.busy = true) :
    t.blk.opk = s.blk.opk ∧ t.blk.acc = s.blk.acc ∧ t.blk.ptr = s.blk.ptr ∧ t.blk.rem = s.blk.rem ∧ t.latch = s.latch := by
  cases h with
  | overrun _ e => simp [e]
  | clrstat _ _ e => simp [e]
  | addrRange idle hi _ _ => rcases hi with rfl | rfl <;> simp [idle] at quiet
  | started idle hi _ _ _ => rcases hi with rfl | rfl <;> simp [idle] at quiet

/-- STATUS.BUSY is bit 0 (R26, R33). -/
theorem Block.statusWord_getLsbD_zero (b : Block) : b.statusWord.getLsbD 0 = b.busy := by
  rw [Block.statusWord, BitVec.getLsbD_setWidth, BitVec.getLsbD_append]
  simp

theorem waitStep_of_busy (s : State) (h : s.busy = true) :
    waitStep s = (s.pushRead s.blk.statusWord).setHost (.wait :: s.host) := if_pos h

theorem waitStep_of_idle (s : State) (h : s.busy = false) : waitStep s = s.pushRead s.blk.statusWord :=
  if_neg (by simp [h])

theorem Platform.regBase_toNat (p : Platform) : p.regBase.toNat = p.windowPage.toNat * 2 ^ 7 := by
  rw [Platform.regBase, toNat_append_eq_mul_add]
  rfl

/-- REG_BASE + offset is the window's page above the offset's seven bits (R9, R86). -/
theorem Platform.busAddress_toNat (p : Platform) (off : Nat) (h : off < 0x80) :
    (p.busAddress off).toNat = p.windowPage.toNat * 2 ^ 7 + off := by
  have := p.windowPage.isLt
  rw [Platform.busAddress, BitVec.toNat_add, p.regBase_toNat, BitVec.toNat_ofNat]
  omega

theorem Platform.windowOffset_busAddress (p : Platform) (off : Nat) (h : off < 0x80) :
    p.windowOffset (p.busAddress off) = some off := by
  have address := p.busAddress_toNat off h
  have page : (p.busAddress off).extractLsb' 7 57 = p.windowPage := by
    refine BitVec.eq_of_toNat_eq ?_
    have := p.windowPage.isLt
    rw [BitVec.extractLsb'_toNat, address, Nat.shiftRight_eq_div_pow]
    omega
  have offset : ((p.busAddress off).extractLsb' 0 7).toNat = off := by
    rw [BitVec.extractLsb'_toNat, address, Nat.shiftRight_zero]
    omega
  rw [Platform.windowOffset, if_pos page, offset]

/-- The machine on a platform with another REG_BASE, given by its upper bits (log entry 2). -/
def State.rebase (page : BitVec 57) (s : State) : State := { s with plat := { s.plat with windowPage := page } }

/-- The answer of a step, on that platform. -/
def Result.rebase (page : BitVec 57) : Result → Result
  | .next s => .next (s.rebase page)
  | .fault f => .fault f
  | .refused r => .refused r

section
variable (page : BitVec 57) (s : State)

@[simp] theorem Result.rebase_next : Result.rebase page (.next s) = .next (s.rebase page) := rfl
@[simp] theorem State.rebase_blk : (s.rebase page).blk = s.blk := rfl
@[simp] theorem State.rebase_stores : (s.rebase page).stores = s.stores := rfl
@[simp] theorem State.rebase_busy : (s.rebase page).busy = s.busy := rfl
@[simp] theorem State.rebase_turn : (s.rebase page).turn = s.turn := rfl
@[simp] theorem State.rebase_borrowed (x : Nat) : (s.rebase page).borrowed x = s.borrowed x := rfl

/-- The own window stands where the platform puts it, whatever REG_BASE is (log entry 15). -/
@[simp] theorem State.rebase_inWindow (x : Nat) : (s.rebase page).plat.inWindow x = s.plat.inWindow x := rfl

@[simp] theorem State.rebase_memAnswers : (s.rebase page).plat.memAnswers = s.plat.memAnswers := rfl
@[simp] theorem State.rebase_blockDevice (a : Word) (n : Nat) : (s.rebase page).blockDevice a n = s.blockDevice a n := rfl
@[simp] theorem State.rebase_memRead (a : Word) (n : Nat) : (s.rebase page).memRead a n = s.memRead a n := rfl
@[simp] theorem State.rebase_overrun : (s.rebase page).overrun = s.overrun.rebase page := rfl
@[simp] theorem State.rebase_accept (op : BitVec 8) : (s.rebase page).accept op = (s.accept op).rebase page := rfl
@[simp] theorem State.rebase_setBlk (b : Block) : (s.rebase page).setBlk b = (s.setBlk b).rebase page := rfl
@[simp] theorem State.rebase_setHost (ops : List HostOp) : (s.rebase page).setHost ops = (s.setHost ops).rebase page := rfl

theorem State.rebase_command (op : BitVec 8) {effect : State → Result}
    (h : ∀ t : State, effect (t.rebase page) = Result.rebase page (effect t)) :
    (s.rebase page).command op effect = Result.rebase page (s.command op effect) := by
  cases hb : s.busy with
  | true => simp [State.command_of_busy, hb]
  | false => simp [State.command_of_idle, hb, h]

theorem startHash_rebase (k : OpKind) : startHash k (s.rebase page) = Result.rebase page (startHash k s) := by
  obtain ⟨wraps, e⟩ | ⟨legal, pending, e⟩ | ⟨legal, visible, e⟩ := startHash_cases k s
  · rw [e, startHash_of_wraps k (s.rebase page) wraps]
    rfl
  · rw [e, startHash_of_invisible k (s.rebase page) legal pending]
    rfl
  · rw [e, startHash_of_legal k (s.rebase page) legal visible]
    rfl

theorem exec_rebase (i : Instr) : exec i (s.rebase page) = Result.rebase page (exec i s) := by
  cases i with
  | hash64 => exact s.rebase_command page 0x01 fun t => startHash_rebase page t .h64
  | hash32 => exact s.rebase_command page 0x02 fun t => startHash_rebase page t .h32
  | clrstat => exact s.rebase_command page 0x03 fun _ => rfl

theorem cmdWrite_rebase (w : Word) : cmdWrite w (s.rebase page) = Result.rebase page (cmdWrite w s) := by
  unfold cmdWrite
  split
  · exact exec_rebase page s _
  · exact s.rebase_command page _ fun _ => rfl

theorem regWrite_rebase (off : Nat) (w : Word) : regWrite off w (s.rebase page) = Result.rebase page (regWrite off w s) := by
  unfold regWrite
  split
  · exact cmdWrite_rebase page s w
  · rfl

theorem waitStep_rebase : waitStep (s.rebase page) = (waitStep s).rebase page := by
  cases hb : s.busy with
  | true => rw [waitStep_of_busy s hb, waitStep_of_busy (s.rebase page) hb]; rfl
  | false => rw [waitStep_of_idle s hb, waitStep_of_idle (s.rebase page) hb]; rfl

theorem storeStep_rebase (a : Word) (b : Byte) : storeStep a b (s.rebase page) = Result.rebase page (storeStep a b s) := by
  unfold storeStep
  rw [State.rebase_inWindow, State.rebase_borrowed]
  split_ifs <;> rfl

theorem fenceStep_rebase : fenceStep (s.rebase page) = Result.rebase page (fenceStep s) := by
  rw [fenceStep, fenceStep, apply_ite (Result.rebase page)]
  rfl

theorem hostOp_rebase (op : HostOp) : hostOp op (s.rebase page) = Result.rebase page (hostOp op s) := by
  cases op with
  | read width off =>
    simp only [hostOp]
    split_ifs <;> rfl
  | write width off w =>
    simp only [hostOp]
    split_ifs
    · exact regWrite_rebase page s off w
    · rfl
  | store a b => exact storeStep_rebase page s a b
  | fence => exact fenceStep_rebase page s
  | wait => exact congrArg Host.Outcome.next (waitStep_rebase page s)

theorem hostStep_rebase : hostStep (s.rebase page) = Result.rebase page (hostStep s) := by
  cases hh : s.host with
  | nil => rw [hostStep_of_nil s hh, hostStep_of_nil (s.rebase page) hh]; rfl
  | cons op ops =>
    rw [hostStep_of_cons s op ops hh, hostStep_of_cons (s.rebase page) op ops hh, State.rebase_setHost, hostOp_rebase]

theorem memoryStep_rebase : memoryStep (s.rebase page) = Result.rebase page (memoryStep s) := by
  unfold memoryStep
  rw [State.rebase_stores]
  split
  · rfl
  · rw [State.rebase_borrowed]
    split_ifs <;> rfl

theorem engineStep_rebase : engineStep (s.rebase page) = Result.rebase page (engineStep s) := by
  unfold engineStep
  rw [State.rebase_busy, State.rebase_blk, State.rebase_blockDevice, State.rebase_memAnswers, State.rebase_memRead]
  split_ifs with idle done device silent
  · rfl
  · rfl
  · rfl
  · rfl
  · cases s.memRead s.blk.ptr s.blk.blockSize <;> rfl

theorem State.rebase_takeTurn : (s.rebase page).takeTurn = s.takeTurn.rebase page := by
  cases ht : s.turns with
  | nil => rw [s.takeTurn_of_nil ht, (s.rebase page).takeTurn_of_nil ht]; rfl
  | cons u ts => rw [s.takeTurn_of_cons u ts ht, (s.rebase page).takeTurn_of_cons u ts ht]; rfl

theorem turnStep_rebase (u : Turn) : turnStep u (s.rebase page) = Result.rebase page (turnStep u s) := by
  cases u with
  | host => exact hostStep_rebase page s
  | engine => exact engineStep_rebase page s
  | memory => exact memoryStep_rebase page s
  | reset => rfl

/-- A step on a platform with another REG_BASE is the step, on that platform (R60, R67). -/
theorem step_rebase : step (s.rebase page) = Result.rebase page (step s) := by
  rw [step_eq_turnStep, step_eq_turnStep, State.rebase_turn, State.rebase_takeTurn, turnStep_rebase]

end

end Sys2Proof.Machine

namespace Sys2Proof.Proofs

open Sys2Proof.Machine

/-- Settles O14: a command changes the block and the latch only, and of the block neither registers nor results. -/
theorem commandFrame : Obligations.CommandFrame := by
  intro i s t h
  have out := exec_next i s t h
  obtain ⟨r64, r32, fault, seed, addr, len, doneIe, errIe⟩ := out.registers
  have operation := out.operation
  obtain ⟨b, l, rfl⟩ := out.only_blk_latch
  exact ⟨fun _ => rfl, rfl, r64, r32, fault, seed, addr, len, doneIe, errIe, rfl, rfl, rfl, rfl, rfl, rfl, operation⟩

/-- Settles O39: the page and the offset are the high and the low bits of the bus address, and a step commutes with a change of
REG_BASE. -/
theorem windowDecodeInvertsBusAddress : Obligations.WindowDecodeInvertsBusAddress :=
  ⟨fun p off h => ⟨p.windowOffset_busAddress off h, by rw [p.regBase_toNat]; omega⟩, fun s page =>
    ⟨fun t h => (step_rebase page s).trans (congrArg (Result.rebase page) h),
      fun e h => (step_rebase page s).trans (congrArg (Result.rebase page) h)⟩⟩

/-- Settles O37: `wait` is queued again while BUSY = 1 only, and reads STATUS either way. -/
theorem waitPollsUntilIdle : Obligations.WaitPollsUntilIdle :=
  ⟨fun s busy => congrArg Host.Outcome.next (waitStep_of_busy s busy),
    fun s idle => congrArg Host.Outcome.next (waitStep_of_idle s idle), fun s => s.blk.statusWord_getLsbD_zero⟩

end Sys2Proof.Proofs
end

section
/-! The mixer (40_mixer.md R100, R104): `mix` is a fold of a shifted copy into its operand, a product with the odd constant and
one more such fold, each of them a bijection. -/

namespace Sys2Proof.Machine

/-- The first and the last step of the mixer: a logical right shift of the operand folded into it (R100). -/
def xorShift {w : Nat} (k : Nat) (x : BitVec w) : BitVec w := x ^^^ (x >>> k)

theorem mix_eq_xorShift (x : Word) : mix x = xorShift 47 (cMix * xorShift 23 x) := rfl

theorem mix_zero : mix 0 = 0 := by decide

theorem eq_zero_of_eq_ushiftRight {w k : Nat} (hk : 0 < k) {d : BitVec w} (h : d = d >>> k) : d = 0#w := by
  have quotient : d.toNat / 2 ^ k = d.toNat := by
    rw [← Nat.shiftRight_eq_div_pow, ← BitVec.toNat_ushiftRight, ← h]
  have := (Nat.div_eq_self.mp quotient).resolve_right (Nat.one_lt_two_pow hk.ne').ne'
  exact BitVec.eq_of_toNat_eq this

/-- The difference of two values with one image is left alone by the shift, so it is 0 (R104). -/
theorem xorShift_injective {w k : Nat} (hk : 0 < k) : Function.Injective (xorShift (w := w) k) := by
  intro x y same
  have difference : (x ^^^ y) ^^^ ((x ^^^ y) >>> k) = 0#w := calc
    (x ^^^ y) ^^^ ((x ^^^ y) >>> k) = xorShift k x ^^^ xorShift k y := by
      rw [BitVec.ushiftRight_xor_distrib, xorShift, xorShift]
      ac_rfl
    _ = 0#w := BitVec.xor_eq_zero_iff.mpr same
  exact BitVec.xor_eq_zero_iff.mp (eq_zero_of_eq_ushiftRight hk (BitVec.xor_eq_zero_iff.mp difference))

theorem xorShift_bijective {w k : Nat} (hk : 0 < k) : Function.Bijective (xorShift (w := w) k) :=
  Finite.injective_iff_bijective.mp (xorShift_injective hk)

/-- The odd constant has an inverse modulo 2^64 (R101, R104). -/
theorem isUnit_cMix : IsUnit cMix :=
  have inverse : cMix * 0xa1bcefb14d101987 = 1 := by decide
  IsUnit.of_mul_eq_one _ inverse

theorem mix_bijective : Function.Bijective mix :=
  (xorShift_bijective (by decide)).comp
    ((IsUnit.isUnit_iff_mulLeft_bijective.mp isUnit_cMix).comp (xorShift_bijective (by decide)))

/-- The shifted copy lies below bit w - k, so the fold leaves the k bits from there up alone (R104). -/
theorem xorShift_extractLsb'_top {w k : Nat} (x : BitVec w) :
    (xorShift k x).extractLsb' (w - k) k = x.extractLsb' (w - k) k := by
  have shifted_out : (x >>> k).extractLsb' (w - k) k = 0#k := by
    ext i hi
    have above : w ≤ k + (w - k + i) := by omega
    simp [BitVec.getLsbD_of_ge x _ above]
  rw [xorShift, BitVec.extractLsb'_xor, shifted_out, BitVec.xor_zero]

end Sys2Proof.Machine

namespace Sys2Proof.Proofs

open Sys2Proof.Machine

/-- Settles O18: each of the three steps is a bijection, and the last leaves the top 47 bits alone. -/
theorem mixIsBijective : Obligations.MixIsBijective := by
  refine ⟨mix_zero, mix_bijective, fun x => ?_⟩
  calc (mix x).extractLsb' 17 47
    _ = (cMix * xorShift 23 x).extractLsb' 17 47 := xorShift_extractLsb'_top _
    _ = (xorShift 23 x * cMix).extractLsb' 17 47 := by rw [BitVec.mul_comm]

/-- Settles O17: the model writes the constant left of the product, the spec right of it. -/
theorem mixSequence : Obligations.MixSequence := by
  refine ⟨?_, mix_zero, by decide⟩
  rintro x _ _ rfl rfl
  rw [mix_eq_xorShift, BitVec.mul_comm]
  rfl

end Sys2Proof.Proofs
end

section
/-! The hash as a pure function of a byte sequence cut into blocks (41_loop_engine.md R112, R113, R116–R118). -/

namespace Sys2Proof.Machine

open Sys2Proof.Safety

/-- R112 with its product written as the spec has it. -/
theorem initAcc_eq (seed len : Word) : initAcc seed len = seed ^^^ (len * 0x880355f21e6d1965) := by
  rw [initAcc, BitVec.mul_comm]
  rfl

/-- R113 with its product written as the spec has it. -/
theorem combine_eq (h v : Word) : combine h v = (h ^^^ mix v) * 0x880355f21e6d1965 := by
  rw [combine, BitVec.mul_comm]
  rfl

theorem length_flatten_blocks (blocks : List (List Byte)) (full : ∀ b ∈ blocks, b.length = 8) :
    blocks.flatten.length = 8 * blocks.length := by
  rw [List.length_flatten, List.map_congr_left full, List.map_const', List.sum_replicate, smul_eq_mul, Nat.mul_comm]

/-- Absorbing the full blocks at the front of a byte sequence is one combine for each of them, in order (R116). -/
theorem absorbBlocks_flatten_append (blocks : List (List Byte)) (tail : List Byte) (h : Word)
    (full : ∀ b ∈ blocks, b.length = 8) :
    absorbBlocks (blocks.flatten ++ tail) h blocks.length = blocks.foldl (fun h b => combine h (le64 b)) h := by
  induction blocks using List.reverseRecOn generalizing tail with
  | nil => rfl
  | append_singleton blocks b ih =>
    obtain ⟨front, last⟩ : (∀ c ∈ blocks, c.length = 8) ∧ b.length = 8 := by simpa [or_imp, forall_and] using full
    have cut : (blocks ++ [b]).flatten ++ tail = blocks.flatten ++ (b ++ tail) := by simp
    have block : ((blocks.flatten ++ (b ++ tail)).drop (8 * blocks.length)).take 8 = b := by
      rw [List.drop_left' (length_flatten_blocks blocks front), List.take_left' last]
    rw [cut, List.length_append, List.length_singleton, absorbBlocks, ih _ front, block, List.foldl_append]
    rfl

/-- R118 for a byte sequence given by its full blocks and the bytes after them. -/
theorem pureHash64_flatten_append (blocks : List (List Byte)) (tail : List Byte) (seed : Word)
    (full : ∀ b ∈ blocks, b.length = 8) (short : tail.length < 8) :
    pureHash64 (blocks.flatten ++ tail) seed =
      mix (absorbTail (blocks.flatten ++ tail) (blocks.foldl (fun h b => combine h (le64 b))
        (initAcc seed (BitVec.ofNat 64 (8 * blocks.length + tail.length))))) := by
  have length : (blocks.flatten ++ tail).length = 8 * blocks.length + tail.length := by
    rw [List.length_append, length_flatten_blocks blocks full]
  rw [pureHash64, length, show (8 * blocks.length + tail.length) / 8 = blocks.length by omega,
    absorbBlocks_flatten_append blocks tail _ full]

/-- Where the full blocks are all there is, nothing more is absorbed (R117). -/
theorem absorbTail_flatten (blocks : List (List Byte)) (h : Word) (full : ∀ b ∈ blocks, b.length = 8) :
    absorbTail blocks.flatten h = h := by
  rw [absorbTail, if_pos (by rw [length_flatten_blocks blocks full]; omega)]

/-- One to seven bytes after the full blocks go through one more combine (R117). -/
theorem absorbTail_flatten_append (blocks : List (List Byte)) (tail : List Byte) (h : Word)
    (full : ∀ b ∈ blocks, b.length = 8) (nonempty : 0 < tail.length) (short : tail.length < 8) :
    absorbTail (blocks.flatten ++ tail) h = combine h (le64 tail) := by
  have front := length_flatten_blocks blocks full
  rw [absorbTail, List.length_append, front, if_neg (by omega),
    List.drop_left' (by omega)]

/-- The pure function is one mix of the hash so far at the end of the bytes (R118). -/
theorem pureHash64_eq_mix_partialHash (bs : List Byte) (seed : Word) :
    pureHash64 bs seed = mix (partialHash bs seed bs.length) := by
  rw [partialHash, if_pos rfl]
  rfl

theorem pureHash64_nil (seed : Word) : pureHash64 [] seed = mix seed := by
  rw [pureHash64_eq_mix_partialHash, List.length_nil, partialHash_zero, initAcc_eq]
  simp

end Sys2Proof.Machine

namespace Sys2Proof.Proofs

open Sys2Proof.Machine

/-- Settles O19: the model writes the constant left of the product, the spec right of it. -/
theorem combineMixesFoldsScales : Obligations.CombineMixesFoldsScales := combine_eq

/-- Settles O22: the full blocks are one fold, and the tail one more step of it or none. -/
theorem hashAbsorbsBlocksThenTail : Obligations.HashAbsorbsBlocksThenTail := by
  simp only [Obligations.HashAbsorbsBlocksThenTail, ← combine_eq, ← initAcc_eq]
  refine ⟨fun blocks seed full => ?_, fun bs short => ⟨le64_toNat_lt bs short, le64_extractLsb' bs short⟩,
    fun blocks tail seed full nonempty short => ?_⟩
  · simpa [absorbTail_flatten blocks _ full] using pureHash64_flatten_append blocks [] seed full (by simp)
  · rw [pureHash64_flatten_append blocks tail seed full short, absorbTail_flatten_append blocks tail _ full nonempty short,
      List.foldl_append]
    rfl

end Sys2Proof.Proofs
end

section
/-! The engine's step in each of its cases (41_loop_engine.md R120–R125), and what it does not read. -/

namespace Sys2Proof.Machine

/-- A step with a block value compresses it (R121). -/
theorem engineStep_of_value (s : State) (v : Word) (hb : s.busy = true) (left : s.blk.rem ≠ 0)
    (answers : s.plat.memAnswers = true)
    (noDevice : ∀ i < s.blk.blockSize, s.plat.deviceAt (byteAddress s.blk.ptr i) = false)
    (read : s.memRead s.blk.ptr s.blk.blockSize = .value v) :
    engineStep s = .next (s.setBlk (s.blk.compress s.blk.blockSize v)) := by
  rw [engineStep, if_neg (by simp [hb]), if_neg (mt s.blk.blockSize_eq_zero_iff.1 left),
    if_neg (by simp [(s.blockDevice_eq_false _ _).2 noDevice]), if_neg (by simp [answers]), read]

/-- A step with a bus error ends the operation (R122). -/
theorem engineStep_of_busError (s : State) (hb : s.busy = true) (left : s.blk.rem ≠ 0)
    (answers : s.plat.memAnswers = true)
    (noDevice : ∀ i < s.blk.blockSize, s.plat.deviceAt (byteAddress s.blk.ptr i) = false)
    (read : s.memRead s.blk.ptr s.blk.blockSize = .busError) : engineStep s = .next (s.raise .busError) := by
  rw [engineStep, if_neg (by simp [hb]), if_neg (mt s.blk.blockSize_eq_zero_iff.1 left),
    if_neg (by simp [(s.blockDevice_eq_false _ _).2 noDevice]), if_neg (by simp [answers]), read]

/-- A step with no byte left finalises (R123). -/
theorem engineStep_of_rem_eq_zero (s : State) (hb : s.busy = true) (rem : s.blk.rem = 0) :
    engineStep s = .next (s.setBlk s.blk.finish) :=
  engineStep_of_end s hb (s.blk.blockSize_eq_zero_iff.2 rem)

/-- A change of state made to what a step answers. -/
def Result.map (f : State → State) : Result → Result
  | .next s => .next (f s)
  | .fault e => .fault e
  | .refused r => .refused r

/-- A change of state that the engine does not see: it leaves the operation, the platform and the memory as they are, and
the engine's three updates of the block leave it as it is (R120). -/
structure EngineBlind (f : State → State) : Prop where
  opk : ∀ s, (f s).blk.opk = s.blk.opk
  ptr : ∀ s, (f s).blk.ptr = s.blk.ptr
  rem : ∀ s, (f s).blk.rem = s.blk.rem
  plat : ∀ s, (f s).plat = s.plat
  mem : ∀ s, (f s).mem = s.mem
  finish : ∀ s, (f s).setBlk (f s).blk.finish = f (s.setBlk s.blk.finish)
  compress : ∀ s n v, (f s).setBlk ((f s).blk.compress n v) = f (s.setBlk (s.blk.compress n v))
  raise : ∀ s c, (f s).raise c = f (s.raise c)

theorem EngineBlind.busy {f : State → State} (blind : EngineBlind f) (s : State) : (f s).busy = s.busy := by
  rw [State.busy_eq, blind.opk, State.busy_eq]

theorem EngineBlind.blockSize {f : State → State} (blind : EngineBlind f) (s : State) :
    (f s).blk.blockSize = s.blk.blockSize := by
  rw [Block.blockSize, blind.rem, Block.blockSize]

theorem EngineBlind.blockDevice {f : State → State} (blind : EngineBlind f) (s : State) (a : Word) (n : Nat) :
    (f s).blockDevice a n = s.blockDevice a n := by
  rw [State.blockDevice, blind.plat, State.blockDevice]

theorem EngineBlind.memRead {f : State → State} (blind : EngineBlind f) (s : State) (a : Word) (n : Nat) :
    (f s).memRead a n = s.memRead a n := by
  have readable : (f s).blockReadable a n = s.blockReadable a n := by
    rw [State.blockReadable, blind.plat, State.blockReadable]
  have bytes : (f s).bytesAt a n = s.bytesAt a n := by
    rw [State.bytesAt, blind.mem, State.bytesAt]
  rw [State.memRead, readable, bytes, State.memRead]

/-- The engine's step commutes with a change it does not see. -/
theorem EngineBlind.engineStep_map {f : State → State} (blind : EngineBlind f) (s : State) :
    engineStep (f s) = Result.map f (engineStep s) := by
  unfold engineStep
  rw [blind.busy, blind.blockSize, blind.ptr, blind.blockDevice, blind.memRead, blind.plat]
  split_ifs with idle done device silent
  · rfl
  · exact congrArg Host.Outcome.next (blind.finish s)
  · rfl
  · rfl
  · cases s.memRead s.blk.ptr s.blk.blockSize with
    | value v => exact congrArg Host.Outcome.next (blind.compress s s.blk.blockSize v)
    | busError => exact congrArg Host.Outcome.next (blind.raise s .busError)

/-- Other values in the registers and bits that only the host writes (R120, R157). -/
def State.withHostRegisters (seed addr len : Word) (doneIe errIe : Bool) (s : State) : State :=
  s.setBlk { s.blk with seed := seed, addr := addr, len := len, doneIe := doneIe, errIe := errIe }

theorem engineBlind_withHostRegisters (seed addr len : Word) (doneIe errIe : Bool) :
    EngineBlind (State.withHostRegisters seed addr len doneIe errIe) := by
  constructor <;> intros <;> rfl

end Sys2Proof.Machine

namespace Sys2Proof.Proofs

open Sys2Proof.Machine

/-- Settles O24: the engine does not see the host's registers. -/
theorem engineIgnoresHostRegisters : Obligations.EngineIgnoresHostRegisters := by
  refine ⟨engineStep_of_idle, fun s seed addr len doneIe errIe => ?_⟩
  have commutes := (engineBlind_withHostRegisters seed addr len doneIe errIe).engineStep_map s
  exact ⟨fun t h => commutes.trans (congrArg (Result.map _) h), fun r h => commutes.trans (congrArg (Result.map _) h)⟩

/-- Settles O25: the step is `Block.compress`, whose ACC is R113's. -/
theorem engineCompressesBlock : Obligations.EngineCompressesBlock := by
  rintro s _ v busy rfl size answers noDevice read
  rw [← combine_eq]
  exact engineStep_of_value s v (s.busy_iff.2 busy) (mt s.blk.blockSize_eq_zero_iff.2 size) answers noDevice read

/-- Settles O26: the step is `State.raise`, which leaves the engine disabled. -/
theorem engineStopsOnBusError : Obligations.EngineStopsOnBusError := by
  rintro s _ busy left answers noDevice read rfl
  exact ⟨engineStep_of_busError s (s.busy_iff.2 busy) left answers noDevice read, engineStep_of_idle _ rfl⟩

/-- Settles O27: the step is `Block.finish`, which writes RESULT32 for OPK = H32 only. -/
theorem engineFinalises : Obligations.EngineFinalises := by
  refine ⟨fun s opk rem => ?_, fun s opk rem => ?_⟩
  all_goals
    rw [engineStep_of_rem_eq_zero s (s.busy_iff.2 (by simp [opk])) rem, Block.finish, opk]
    rfl

end Sys2Proof.Proofs
end

section
/-! The commands that start the engine, up to its first step (41_loop_engine.md R112, R114, R115, R127), and the completion of
an operation (R118, R123). -/

namespace Sys2Proof.Machine

/-- The state right after an accepted hash command whose range and buffer are good (R114, R143, R153). -/
def State.started (i : Instr) (s : State) : State :=
  ((s.accept i.op).setBlk ((s.accept i.op).blk.start (hashKind i))).setLatch
    { seed := s.blk.seed, addr := s.blk.addr, len := s.blk.len }

theorem exec_of_hash {i : Instr} (hi : i = .hash64 ∨ i = .hash32) (s : State) :
    exec i s = s.command i.op (startHash (hashKind i)) := by
  rcases hi with rfl | rfl <;> rfl

theorem exec_hash_of_legal {i : Instr} (hi : i = .hash64 ∨ i = .hash32) (s : State) (idle : s.busy = false)
    (legal : rangeWraps s.blk.addr s.blk.len = false) (visible : s.storePending s.blk.addr s.blk.len = false) :
    exec i s = .next (s.started i) := by
  rw [exec_of_hash hi, State.command_of_idle _ _ _ idle]
  exact startHash_of_legal (hashKind i) (s.accept i.op) legal visible

theorem exec_hash_of_wraps {i : Instr} (hi : i = .hash64 ∨ i = .hash32) (s : State) (idle : s.busy = false)
    (wraps : rangeWraps s.blk.addr s.blk.len = true) : exec i s = .next ((s.accept i.op).raise .addrRange) := by
  rw [exec_of_hash hi, State.command_of_idle _ _ _ idle]
  exact startHash_of_wraps (hashKind i) (s.accept i.op) wraps

theorem State.started_busy {i : Instr} (hi : i = .hash64 ∨ i = .hash32) (s : State) : (s.started i).busy = true := by
  rcases hi with rfl | rfl <;> rfl

theorem State.storePending_eq_false_of_zero (s : State) (a : Word) : s.storePending a 0 = false :=
  (s.storePending_eq_false a 0).2 fun c _ => by simp [inRange]

/-- Waiting stores and the range, by the stores' addresses (R198). -/
theorem State.storePending_eq_false_iff_outside (s : State) (a l : Word) :
    s.storePending a l = false ↔ ∀ c ∈ s.stores, ¬(a.toNat ≤ c.1 ∧ c.1 < a.toNat + l.toNat) := by
  simp only [State.storePending_eq_false, ← inRange_iff, Bool.not_eq_true]

/-- The status of an error of a block that is idle: OPK stays (R153, R171). -/
theorem Block.raise_addrRange_of_idle (b : Block) (op : BitVec 8) (idle : b.opk = .idle) :
    (b.accept op).raise .addrRange =
      { b with done := false, err := true, ovr := false, errcode := 2, lastop := op } := by
  cases b
  cases idle
  rfl

theorem Block.memRequest_of_rem_eq_zero (b : Block) (rem : b.rem = 0) : b.memRequest = none := by
  rw [Block.memRequest, b.blockSize_eq_zero_iff.2 rem]
  simp

/-- While BUSY = 1 a CMD write leaves the operation alone (R156). -/
theorem CmdOutcome.operation_of_busy {w : Word} {s t : State} (h : CmdOutcome w s t) (busy : s.busy = true) :
    t.blk.opk = s.blk.opk ∧ t.blk.acc = s.blk.acc ∧ t.blk.ptr = s.blk.ptr ∧ t.blk.rem = s.blk.rem := by
  cases h with
  | command _ _ out =>
    obtain ⟨opk, acc, ptr, rem, -⟩ := out.operation (.inr busy)
    exact ⟨opk, acc, ptr, rem⟩
  | overrun _ e => simp [e]
  | illegal idle _ _ _ => simp [idle] at busy

/-- While BUSY = 1 no operation of the host reaches the engine's own elements (R120, R156). -/
theorem HostOutcome.operation_of_busy {op : HostOp} {s t : State} (h : HostOutcome s t op) (busy : s.busy = true) :
    t.blk.opk = s.blk.opk ∧ t.blk.acc = s.blk.acc ∧ t.blk.ptr = s.blk.ptr ∧ t.blk.rem = s.blk.rem := by
  cases h with
  | read _ _ _ e => simp [e, regRead]
  | cmd _ out => exact out.operation_of_busy busy
  | write _ off w _ _ e => simp [e, Block.writeReg_keeps]
  | store _ _ _ _ e => simp [e]
  | fence _ e => simp [e]
  | wait e => simp [e]

/-- With bytes left and a silent memory, the engine's turn does nothing (R125; log entry 7). -/
theorem EngineOutcome.eq_of_silent {s t : State} (h : EngineOutcome s t) (left : s.blk.rem ≠ 0)
    (silent : s.plat.memAnswers = false) : t = s := by
  cases h with
  | idle _ e => exact e
  | finished _ size _ => exact absurd (s.blk.blockSize_eq_zero_iff.1 size) left
  | stuck _ _ _ _ e => exact e
  | compressed _ _ answers _ _ _ => simp [silent] at answers
  | busError _ _ answers _ _ _ => simp [silent] at answers

end Sys2Proof.Machine

namespace Sys2Proof.Safety

open Sys2Proof.Machine

/-- With no byte left, mix of ACC is the hash of the buffer (R118, R123). -/
theorem OperationInv.mix_acc {s : State} (h : OperationInv s) (busy : s.busy = true) (rem : s.blk.rem = 0) :
    mix s.blk.acc = pureHash64 (buffer s) s.latch.seed := by
  rw [h.accAt busy, rem, pureHash64_eq_mix_partialHash, buffer_length]
  rfl

end Sys2Proof.Safety

namespace Sys2Proof.Proofs

open Sys2Proof.Machine Sys2Proof.Safety

/-- Settles O7: acceptance and the start of the operation, on a range that R115 passes. -/
theorem hash64StartsOperation : Obligations.Hash64StartsOperation := by
  intro s idle legal visible
  rw [← initAcc_eq]
  exact exec_hash_of_legal (.inl rfl) s (s.blk.busy_eq_false.2 idle) ((rangeWraps_eq_false _ _).2 legal)
    ((s.storePending_eq_false_iff_outside _ _).2 visible)

/-- Settles O10: of the outcomes of a command only the range error sets ERR, and it needs a range that wraps. -/
theorem wrappingRangeRaisesAddrRange : Obligations.WrappingRangeRaisesAddrRange := by
  refine ⟨fun s idle nonempty wraps => ?_, fun s t i idle legal h => ?_⟩
  · have raises {i : Instr} (hi : i = .hash64 ∨ i = .hash32) :=
      exec_hash_of_wraps hi s (s.blk.busy_eq_false.2 idle) ((rangeWraps_eq_true _ _).2 ⟨nonempty, wraps⟩)
    have status (op : BitVec 8) := congrArg s.setBlk (s.blk.raise_addrRange_of_idle op idle)
    exact ⟨(raises (.inl rfl)).trans (congrArg _ (status 0x01)), (raises (.inr rfl)).trans (congrArg _ (status 0x02))⟩
  · cases exec_next i s t h with
    | overrun busy _ => exact absurd idle (s.busy_iff.1 busy)
    | clrstat _ _ e => simp [e]
    | addrRange _ _ wraps _ => simp [(rangeWraps_eq_false _ _).2 legal] at wraps
    | started _ _ _ _ e => simp [e]

/-- Settles O29: while BUSY = 1 only the engine and reset reach the operation, and the engine is stuck. -/
theorem silentMemoryLeavesBusy : Obligations.SilentMemoryLeavesBusy := by
  intro s t busy left silent noReset hstep
  suffices same : t.blk.opk = s.blk.opk ∧ t.blk.acc = s.blk.acc ∧ t.blk.ptr = s.blk.ptr ∧ t.blk.rem = s.blk.rem from
    ⟨by rwa [State.busy_eq, same.1], same⟩
  cases step_next s t hstep with
  | hostIdle _ _ e => simp [e]
  | host _ op ops _ out => simpa using out.operation_of_busy (by simpa [State.busy_eq] using busy)
  | engine _ out => simp [out.eq_of_silent (by simpa using left) (by simpa using silent)]
  | memoryIdle _ _ e => simp [e]
  | memory _ _ _ _ _ e => simp [e]
  | reset turn _ => exact absurd turn noReset

/-- Settles O46: the operation starts with no byte left, so the engine's first step is its last. -/
theorem zeroLengthHashesSeed : Obligations.ZeroLengthHashesSeed := by
  refine ⟨fun s idle len => ?_, pureHash64_nil⟩
  have busy : (s.started .hash64).busy = true := s.started_busy (.inl rfl)
  have acc : (s.started .hash64).blk.acc = s.blk.seed := by simp [State.started, Block.start, initAcc, len]
  refine ⟨s.started .hash64, _, exec_hash_of_legal (.inl rfl) s (s.blk.busy_eq_false.2 idle)
    ((rangeWraps_eq_false _ _).2 (.inl len)) (len ▸ s.storePending_eq_false_of_zero _), busy,
    Block.memRequest_of_rem_eq_zero _ len, engineStep_of_rem_eq_zero _ busy len, rfl, rfl, ?_, fun seed => ?_⟩
  · exact congrArg mix acc
  · exact (congrArg mix (acc.trans seed)).trans mix_zero

/-- Settles O51: the invariant's ACC at REM = 0 is the hash before its last mix. -/
theorem completionWritesHashOfBuffer : Obligations.CompletionWritesHashOfBuffer := by
  intro s inv busy rem
  have hash := inv.mix_acc busy rem
  refine ⟨_, engineStep_of_rem_eq_zero s busy rem, rfl, rfl, hash, fun h32 => ?_, fun h64 => ?_⟩
  · rw [pureHash32, ← hash]
    exact if_pos h32
  · exact if_neg (by simp [h64])

end Sys2Proof.Proofs
end

section
/-! Runs of the engine, block after block, over full blocks from any operation in progress (41_loop_engine.md
R116, R121, R122). -/

namespace Sys2Proof.Machine

open Sys2Proof.Safety

/-- The state after the engine has absorbed the next `k` full blocks (R116, R121). -/
def State.afterBlocks (s : State) (k : Nat) : State :=
  s.setBlk { s.blk with
    acc := absorbBlocks (s.bytesAt s.blk.ptr s.blk.rem.toNat) s.blk.acc k
    ptr := s.blk.ptr + BitVec.ofNat 64 (8 * k)
    rem := s.blk.rem - BitVec.ofNat 64 (8 * k) }

theorem State.afterBlocks_zero (s : State) : s.afterBlocks 0 = s := by
  simp [State.afterBlocks, State.setBlk, absorbBlocks]

theorem State.afterBlocks_byteAddress (s : State) (k i : Nat) :
    byteAddress (s.afterBlocks k).blk.ptr i = byteAddress s.blk.ptr (8 * k + i) :=
  byteAddress_add s.blk.ptr (8 * k) i

theorem State.afterBlocks_blockSize (s : State) (k : Nat) (le : 8 * k ≤ s.blk.rem.toNat) :
    (s.afterBlocks k).blk.blockSize = min (s.blk.rem.toNat - 8 * k) 8 := by
  have := s.blk.rem.isLt
  have rem : (s.afterBlocks k).blk.rem.toNat = s.blk.rem.toNat - 8 * k := by
    rw [State.afterBlocks, State.setBlk_blk, BitVec.toNat_sub, BitVec.toNat_ofNat]
    omega
  rw [Block.blockSize, rem]

/-- The next full block's bytes, as the block `k` of the bytes left at the start (R116). -/
theorem State.afterBlocks_bytesAt (s : State) (k : Nat) (le : 8 * k + 8 ≤ s.blk.rem.toNat) :
    (s.afterBlocks k).bytesAt (s.afterBlocks k).blk.ptr 8 =
      ((s.bytesAt s.blk.ptr s.blk.rem.toNat).drop (8 * k)).take 8 := by
  rw [State.bytesAt_drop, State.bytesAt_take, Nat.min_eq_left (by omega)]
  rfl

theorem State.afterBlocks_succ (s : State) (k : Nat) (le : 8 * k + 8 ≤ s.blk.rem.toNat) :
    (s.afterBlocks k).setBlk
        ((s.afterBlocks k).blk.compress 8 (le64 ((s.afterBlocks k).bytesAt (s.afterBlocks k).blk.ptr 8))) =
      s.afterBlocks (k + 1) := by
  rw [s.afterBlocks_bytesAt k le]
  simp only [State.afterBlocks, State.setBlk, Block.compress, absorbBlocks, Nat.mul_succ, BitVec.ofNat_add]
  congr 2 <;> ring

/-- `k` engine steps over full blocks that are readable and without a device absorb them in order (R116, R121). -/
theorem engineRun_afterBlocks (s : State) (k : Nat) (busy : s.busy = true) (answers : s.plat.memAnswers = true)
    (le : 8 * k ≤ s.blk.rem.toNat)
    (ok : ∀ j < 8 * k, s.plat.readableAt (byteAddress s.blk.ptr j) = true ∧
      s.plat.deviceAt (byteAddress s.blk.ptr j) = false) :
    engineRun k s = .next (s.afterBlocks k) := by
  induction k with
  | zero => rw [State.afterBlocks_zero, engineRun]
  | succ k ih =>
    have size : (s.afterBlocks k).blk.blockSize = 8 := by
      rw [s.afterBlocks_blockSize k (by omega)]
      omega
    have step := engineStep_of_ok (s.afterBlocks k) busy answers (by rw [size]; decide) fun i hi => by
      rw [s.afterBlocks_byteAddress]
      exact ok _ (by omega)
    rw [engineRun_succ k s _ (ih (by omega) fun j hj => ok j (by omega)), step, size, s.afterBlocks_succ k le]

end Sys2Proof.Machine

namespace Sys2Proof.Proofs

open Sys2Proof.Machine Sys2Proof.Safety

/-- Settles O49: the k blocks before are absorbed, and the next step's read meets the unreadable byte. -/
theorem busErrorIsPrecise : Obligations.BusErrorIsPrecise := by
  intro s k i busy answers noDevice readable low high inside unreadable
  have size := s.afterBlocks_blockSize k (by omega)
  have left : (s.afterBlocks k).blk.rem ≠ 0 := mt (Block.blockSize_eq_zero_iff _).2 (by omega)
  rw [engineRun_succ k s _ (engineRun_afterBlocks s k (s.busy_iff.2 busy) answers (by omega)
    fun j hj => ⟨readable j hj, noDevice j (by omega) (by omega)⟩)]
  refine engineStep_of_busError (s.afterBlocks k) (s.busy_iff.2 busy) left answers (fun j hj => ?_)
    (State.memRead_of_unreadable _ _ _ (i - 8 * k) (by omega) ?_)
  · rw [s.afterBlocks_byteAddress]
    exact noDevice _ (by omega) (by omega)
  · rw [s.afterBlocks_byteAddress, Nat.add_sub_cancel' low]
    exact unreadable

end Sys2Proof.Proofs
end

section
/-! A whole operation (41_loop_engine.md R120–R124): the engine reads the latched range to its end in floor(L/8) + (L mod 8 ≠ 0)
steps and completes in one more, and a run of the machine in which the engine has the turns does the same. -/

namespace Sys2Proof.Machine

open Sys2Proof.Safety

/-- The state in which the engine has read the whole latched range and has only to finalise (R117, R124). -/
def State.drained (s : State) : State :=
  s.setBlk { s.blk with
    acc := partialHash (buffer s) s.latch.seed s.latch.len.toNat
    ptr := s.latch.addr + s.latch.len
    rem := 0 }

/-- The state after the finalisation that follows (R123). -/
def State.completed (s : State) : State := s.drained.setBlk s.drained.blk.finish

/-- A run that answers is its first step and the rest. -/
theorem engineRun_succ_next {k : Nat} {s t : State} (h : engineRun (k + 1) s = .next t) :
    ∃ u, engineStep s = .next u ∧ engineRun k u = .next t := by
  unfold engineRun at h
  split at h
  · exact ⟨_, ‹_›, h⟩
  · cases h
  · cases h

/-- The engine never raises BUSY (R120). -/
theorem EngineOutcome.busy_of_busy {s t : State} (h : EngineOutcome s t) (busy : t.busy = true) : s.busy = true := by
  cases h with
  | idle _ e => exact e ▸ busy
  | finished busy _ _ => exact busy
  | stuck busy _ _ _ _ => exact busy
  | compressed busy _ _ _ _ _ => exact busy
  | busError busy _ _ _ _ _ => exact busy

/-- A run of the engine that ends with BUSY = 1 had BUSY = 1 after each of its steps. -/
theorem engineRun_prefix_busy {n : Nat} {s t : State} (run : engineRun n s = .next t) (busy : t.busy = true) {j : Nat}
    (hj : j ≤ n) : ∃ u, engineRun j s = .next u ∧ u.busy = true := by
  induction n generalizing s j with
  | zero =>
    obtain rfl : j = 0 := by omega
    exact ⟨t, run, busy⟩
  | succ n ih =>
    obtain ⟨v, step, rest⟩ := engineRun_succ_next run
    cases j with
    | zero =>
      obtain ⟨_, start, first⟩ := ih rest (Nat.zero_le n)
      cases start
      exact ⟨s, rfl, (engineStep_next s v step).busy_of_busy first⟩
    | succ j =>
      obtain ⟨u, more, last⟩ := ih rest (Nat.le_of_succ_le_succ hj)
      exact ⟨u, by rw [engineRun, step]; exact more, last⟩

/-- The turns that come later. -/
def State.setTurns (ts : List Turn) (s : State) : State := { s with turns := ts }

theorem engineBlind_setTurns (ts : List Turn) : EngineBlind (State.setTurns ts) := by
  constructor <;> intros <;> rfl

/-- In the engine's turns the machine runs as the engine does (R6, R120). -/
theorem core_run_engineTurns (k : Nat) {s t : State} {ts : List Turn} (turns : s.turns = List.replicate k .engine ++ ts)
    (run : engineRun k (s.setTurns ts) = .next t) : Host.Core.run Sys2Proof.core k s = .next t := by
  induction k generalizing s with
  | zero =>
    obtain rfl : s.turns = ts := turns
    exact run
  | succ k ih =>
    rw [List.replicate_succ, List.cons_append] at turns
    obtain ⟨u, stepped, rest⟩ := engineRun_succ_next run
    obtain ⟨b, rfl⟩ := (engineStep_next _ u stepped).only_blk
    have later : step s = .next (State.setTurns (List.replicate k .engine ++ ts) ((s.setTurns ts).setBlk b)) := calc
      step s = engineStep (State.setTurns (List.replicate k .engine ++ ts) (s.setTurns ts)) :=
        step_of_turns_cons s .engine _ turns
      _ = _ := by rw [(engineBlind_setTurns _).engineStep_map, stepped, Result.map]
    rw [core_run_next k s _ later]
    exact ih rfl rest

end Sys2Proof.Machine

namespace Sys2Proof.Safety

open Sys2Proof.Machine

/-- With no byte left the engine stands at the end of the range (R121). -/
theorem OperationInv.drained_eq {s : State} (h : OperationInv s) (busy : s.busy = true) (rem : s.blk.rem = 0) :
    s.drained = s := by
  have acc : partialHash (buffer s) s.latch.seed s.latch.len.toNat = s.blk.acc := by
    rw [h.accAt busy, rem]
    rfl
  have ptr : s.latch.addr + s.latch.len = s.blk.ptr := by rw [h.ptrAt busy, rem, sub_zero]
  rw [State.drained, acc, ptr, ← rem]
  rfl

/-- Each byte of the next block is one of the buffer's (R60, R64). -/
theorem OperationInv.byteAddress_block {s : State} (h : OperationInv s) (busy : s.busy = true) (i : Nat) :
    byteAddress s.blk.ptr i = byteAddress s.latch.addr (s.latch.len.toNat - s.blk.rem.toNat + i) := by
  rw [h.ptr_eq_add_ofNat busy, byteAddress_add]

/-- A good buffer's next block is absorbed (R121). -/
theorem OperationInv.engineStep_of_bufferOk {s : State} (h : OperationInv s) (busy : s.busy = true) (left : s.blk.rem ≠ 0)
    (ok : bufferOk s s.latch.addr s.latch.len) :
    engineStep s = .next
      (s.setBlk (s.blk.compress s.blk.blockSize (le64 (s.bytesAt s.blk.ptr s.blk.blockSize)))) := by
  have le := h.remLeLen busy
  have size := mt s.blk.blockSize_eq_zero_iff.1 left
  have inside {i : Nat} (hi : i < s.blk.blockSize) := ok (s.latch.len.toNat - s.blk.rem.toNat + i) (by
    rw [Block.blockSize] at hi
    omega)
  obtain ⟨answers, -⟩ := inside (Nat.pos_of_ne_zero size)
  exact engineStep_of_ok s busy answers size fun i hi => h.byteAddress_block busy i ▸ (inside hi).2

theorem blockCount_eq_zero {l : Nat} (h : blockCount l = 0) : l = 0 := by
  unfold blockCount at h
  split_ifs at h
  omega

/-- One block fewer (R105). -/
theorem blockCount_sub_min (l : Nat) (h : l ≠ 0) : blockCount (l - min l 8) + 1 = blockCount l := by
  unfold blockCount
  split_ifs <;> omega

/-- Over a good buffer the engine reads all that is left in one step for each block (R124). -/
theorem OperationInv.engineRun_drained {s : State} (h : OperationInv s) (busy : s.busy = true)
    (ok : bufferOk s s.latch.addr s.latch.len) : engineRun (blockCount s.blk.rem.toNat) s = .next s.drained := by
  generalize hn : blockCount s.blk.rem.toNat = n
  induction n generalizing s with
  | zero => rw [h.drained_eq busy (BitVec.eq_of_toNat_eq (blockCount_eq_zero hn)), engineRun]
  | succ n ih =>
    have left : s.blk.rem ≠ 0 := by
      intro rem
      simp [rem, blockCount] at hn
    have fewer := blockCount_sub_min s.blk.rem.toNat fun rem => left (BitVec.eq_of_toNat_eq rem)
    rw [engineRun, h.engineStep_of_bufferOk busy left ok]
    refine ih (h.of_compress busy left) busy ok ?_
    rw [State.setBlk_blk, Block.compress_rem_toNat, Block.blockSize]
    omega

/-- One step more completes the operation (R123, R124). -/
theorem OperationInv.engineRun_finish {s : State} (h : OperationInv s) (busy : s.busy = true)
    (ok : bufferOk s s.latch.addr s.latch.len) :
    engineRun (blockCount s.blk.rem.toNat + 1) s = .next s.completed := by
  rw [engineRun_succ _ s _ (h.engineRun_drained busy ok)]
  exact engineStep_of_rem_eq_zero s.drained busy rfl

end Sys2Proof.Safety

namespace Sys2Proof.Machine

open Sys2Proof.Safety

/-- A hash command that is the host's next operation, and then the engine's turns: the machine runs as the engine does from
the operation just started (R114, R120). -/
theorem core_run_hash {i : Instr} (hi : i = .hash64 ∨ i = .hash32) {s u : State} {rest : List HostOp} {ts : List Turn}
    {k : Nat} (host : s.host = .write 64 0x08 (encode i) :: rest)
    (turns : s.turns = .host :: (List.replicate k .engine ++ ts)) (idle : s.busy = false)
    (legal : rangeWraps s.blk.addr s.blk.len = false) (visible : s.storePending s.blk.addr s.blk.len = false)
    (run : engineRun k (({ s with turns := ts, host := rest } : State).started i) = .next u) :
    Host.Core.run Sys2Proof.core (k + 1) s = .next u := by
  have accepted := (step_of_cmd_write s rest _ _ i turns host ((decode_eq_ok_iff _ i).2 rfl)).trans
    (exec_hash_of_legal hi _ idle legal visible)
  rw [core_run_next _ s _ accepted]
  exact core_run_engineTurns k rfl run

/-- The same over a good buffer, to completion, and BUSY = 1 until then (R124). -/
theorem core_run_hash_completes {i : Instr} (hi : i = .hash64 ∨ i = .hash32) {s : State} {rest : List HostOp}
    {ts : List Turn} (host : s.host = .write 64 0x08 (encode i) :: rest)
    (turns : s.turns = .host :: (List.replicate (blockCount s.blk.len.toNat + 1) .engine ++ ts)) (idle : s.busy = false)
    (legal : rangeWraps s.blk.addr s.blk.len = false) (visible : s.storePending s.blk.addr s.blk.len = false)
    (ok : bufferOk s s.blk.addr s.blk.len) :
    Host.Core.run Sys2Proof.core (blockCount s.blk.len.toNat + 2) s =
        .next (({ s with turns := ts, host := rest } : State).started i).completed ∧
      ∀ j ≤ blockCount s.blk.len.toNat, ∃ u : State,
        Host.Core.run Sys2Proof.core (j + 1) s = .next u ∧ u.busy = true := by
  have inv (ts : List Turn) : OperationInv (({ s with turns := ts, host := rest } : State).started i) :=
    .of_started legal visible rfl rfl rfl
  have busy (ts : List Turn) := State.started_busy hi { s with turns := ts, host := rest }
  refine ⟨core_run_hash hi host turns idle legal visible ((inv ts).engineRun_finish (busy ts) ok), fun j hj => ?_⟩
  obtain ⟨later, split⟩ : ∃ later, List.replicate (blockCount s.blk.len.toNat + 1) Turn.engine ++ ts =
      List.replicate j .engine ++ later :=
    ⟨List.replicate (blockCount s.blk.len.toNat + 1 - j) .engine ++ ts, by
      rw [← List.append_assoc, ← List.replicate_add, Nat.add_sub_cancel' (by omega)]⟩
  obtain ⟨u, run, still⟩ := engineRun_prefix_busy ((inv later).engineRun_drained (busy later) ok) (busy later) hj
  exact ⟨u, core_run_hash hi host (split ▸ turns) idle legal visible run, still⟩

end Sys2Proof.Machine

namespace Sys2Proof.Proofs

open Sys2Proof.Machine Sys2Proof.Safety

/-- Settles O47: the operation starts with its invariant, the engine reads the buffer to its end, and ACC is then the hash
before its last mix. -/
theorem hash64RunsToCompletion : Obligations.Hash64RunsToCompletion := by
  intro s rest ts host turns idle range visible ok
  obtain ⟨run, still⟩ := core_run_hash_completes (.inl rfl) host turns (s.blk.busy_eq_false.2 idle)
    ((rangeWraps_eq_false _ _).2 range) visible ok
  have hash := pureHash64_eq_mix_partialHash (s.bytesAt s.blk.addr s.blk.len.toNat) s.blk.seed
  rw [State.bytesAt_length] at hash
  refine ⟨_, run.trans ?_, hash, still⟩
  rw [hash]
  rfl

end Sys2Proof.Proofs
end

section
/-! The 64-to-32-bit fold and the HASH32 command (42_fold_unit.md R140–R143). -/

namespace Sys2Proof.Machine

theorem fold32_toNat (h : Word) : (fold32 h).toNat = (h - (h >>> 32)).toNat % 2 ^ 32 := by
  rw [fold32, BitVec.extractLsb'_toNat, Nat.shiftRight_zero]

/-- Truncation commutes with the difference, and the shift brings the upper half down (R141). -/
theorem fold32_eq_sub_halves (h : Word) : fold32 h = h.extractLsb' 0 32 - h.extractLsb' 32 32 := calc
  fold32 h = (h - (h >>> 32)).setWidth 32 := (BitVec.setWidth_eq_extractLsb' (by decide)).symm
  _ = h.setWidth 32 - (h >>> 32).setWidth 32 := by
    rw [BitVec.sub_eq_add_neg, BitVec.setWidth_add _ _ (by decide), BitVec.setWidth_neg_of_le (by decide),
      ← BitVec.sub_eq_add_neg]
  _ = h.extractLsb' 0 32 - h.extractLsb' 32 32 := by
    rw [BitVec.setWidth_eq_extractLsb' (by decide), BitVec.setWidth_ushiftRight_eq_extractLsb]

end Sys2Proof.Machine

namespace Sys2Proof.Proofs

open Sys2Proof.Machine

/-- Settles O20: truncation commutes with the difference; the spec's three values are evaluated. -/
theorem foldIsDifferenceOfHalves : Obligations.FoldIsDifferenceOfHalves :=
  ⟨fold32_toNat, fold32_eq_sub_halves, by decide⟩

/-- Settles O21: hash32 is defined as the fold of hash64. -/
theorem hash32IsFoldOfHash64 : Obligations.Hash32IsFoldOfHash64 :=
  fun bs seed => fold32_toNat (pureHash64 bs seed)

/-- Settles O8: HASH32 starts as HASH64 does, with its own OPK and LASTOP. -/
theorem hash32StartsOperation : Obligations.Hash32StartsOperation := by
  intro s idle legal visible
  rw [← initAcc_eq]
  exact exec_hash_of_legal (.inr rfl) s (s.blk.busy_eq_false.2 idle) ((rangeWraps_eq_false _ _).2 legal)
    ((s.storePending_eq_false_iff_outside _ _).2 visible)

/-- Settles O48: the run of HASH64 with OPK = H32, so that the completion also writes the fold of the hash to RESULT32. -/
theorem hash32RunsToCompletion : Obligations.Hash32RunsToCompletion := by
  intro s rest ts host turns idle range visible ok
  obtain ⟨run, still⟩ := core_run_hash_completes (.inr rfl) host turns (s.blk.busy_eq_false.2 idle)
    ((rangeWraps_eq_false _ _).2 range) visible ok
  have hash := pureHash64_eq_mix_partialHash (s.bytesAt s.blk.addr s.blk.len.toNat) s.blk.seed
  rw [State.bytesAt_length] at hash
  refine ⟨_, run.trans ?_, hash, still⟩
  rw [pureHash32, hash]
  rfl

end Sys2Proof.Proofs
end

section
/-! A CMD write, accepted or not, what it shows in STATUS, and when OVR falls (43_control.md R150, R153, R155, R156). -/

namespace Sys2Proof.Machine

/-- R153: acceptance, then the case of the exact word. -/
theorem cmdWrite_of_idle (w : Word) (s : State) (idle : s.busy = false) :
    cmdWrite w s =
      if w = 1 then startHash .h64 (s.accept (w.extractLsb' 0 8))
      else if w = 2 then startHash .h32 (s.accept (w.extractLsb' 0 8))
      else if w = 3 then .next (s.accept (w.extractLsb' 0 8))
      else .next ((s.accept (w.extractLsb' 0 8)).raise .illegalCmd) := by
  unfold cmdWrite decode
  split_ifs <;> subst_vars <;> exact State.command_of_idle _ _ _ idle

theorem cmdWrite_of_illegal {w : Word} {s : State} (idle : s.busy = false) (h1 : w ≠ 1) (h2 : w ≠ 2) (h3 : w ≠ 3) :
    cmdWrite w s = .next ((s.accept (w.extractLsb' 0 8)).raise .illegalCmd) := by
  rw [cmdWrite_of_idle w s idle, if_neg h1, if_neg h2, if_neg h3]

theorem cmdWrite_three_of_idle {s : State} (idle : s.busy = false) : cmdWrite 3 s = .next (s.accept 0x03) :=
  cmdWrite_of_idle 3 s idle

theorem exec_clrstat_of_idle {s : State} (idle : s.busy = false) : exec .clrstat s = .next (s.accept 0x03) :=
  State.command_of_idle _ _ _ idle

theorem exec_of_busy (i : Instr) {s : State} (busy : s.busy = true) : exec i s = .next s.overrun := by
  rw [← cmdWrite_of_decode ((decode_eq_ok_iff (encode i) i).2 rfl), cmdWrite_of_busy _ s busy]

/-- An illegal command of a block that is idle: OPK stays (R155, R171). -/
theorem State.raise_illegalCmd_of_idle {s : State} (idle : s.blk.opk = .idle) :
    s.raise .illegalCmd = { s with blk := { s.blk with err := true, errcode := 1 } } := by
  rw [State.raise, Block.raise, ← idle]
  rfl

/-- STATUS after an acceptance that starts nothing: LASTOP alone (R33, R153). -/
theorem Block.statusWord_accept_toNat {b : Block} (idle : b.opk = .idle) (op : BitVec 8) :
    (b.accept op).statusWord.toNat = op.toNat * 2 ^ 16 := by
  simp [Proofs.statusWordLayout (b.accept op), idle]

/-- STATUS after an illegal command: LASTOP, ERRCODE = 1 and ERR (R33, R155). -/
theorem Block.statusWord_illegalCmd_toNat (b : Block) (op : BitVec 8) :
    ((b.accept op).raise .illegalCmd).statusWord.toNat = op.toNat * 2 ^ 16 + 0x104 := by
  simp [Proofs.statusWordLayout ((b.accept op).raise .illegalCmd), ErrCode.bits]

/-- A CMD write leaves the results, FAULT_ADDR, the operand registers and CTRL alone (R153). -/
theorem CmdOutcome.registers {w : Word} {s t : State} (h : CmdOutcome w s t) :
    t.blk.result64 = s.blk.result64 ∧ t.blk.result32 = s.blk.result32 ∧ t.blk.faultAddr = s.blk.faultAddr ∧
    t.blk.seed = s.blk.seed ∧ t.blk.addr = s.blk.addr ∧ t.blk.len = s.blk.len ∧
    t.blk.doneIe = s.blk.doneIe ∧ t.blk.errIe = s.blk.errIe := by
  cases h with
  | command _ _ out => exact out.registers
  | overrun _ e => simp [e]
  | illegal _ _ _ e => simp [e]

theorem CmdOutcome.ovr_of_busy {w : Word} {s t : State} (h : CmdOutcome w s t) (busy : s.busy = true) :
    t.blk.ovr = true := by
  cases h with
  | command _ _ out =>
    cases out with
    | overrun _ e => simp [e]
    | clrstat idle _ _ => simp [idle] at busy
    | addrRange idle _ _ _ => simp [idle] at busy
    | started idle _ _ _ _ => simp [idle] at busy
  | overrun _ e => simp [e]
  | illegal idle _ _ _ => simp [idle] at busy

/-- Of the host's operations only an accepted CMD write clears OVR. -/
theorem HostOutcome.ovr {op : HostOp} {s t : State} (h : HostOutcome s t op) (wasSet : s.blk.ovr = true) :
    t.blk.ovr = true ∨ (s.busy = false ∧ ∃ w : Word, op = .write 64 0x08 w) := by
  cases h with
  | read _ _ _ e => exact .inl (by simp [e, regRead, wasSet])
  | cmd w out =>
    cases hb : s.busy with
    | true => exact .inl (out.ovr_of_busy hb)
    | false => exact .inr ⟨rfl, w, rfl⟩
  | write _ _ _ _ _ e => exact .inl (by simp [e, Block.writeReg_keeps, wasSet])
  | store _ _ _ _ e => exact .inl (by simp [e, wasSet])
  | fence _ e => exact .inl (by simp [e, wasSet])
  | wait e => exact .inl (by simp [e, wasSet])

theorem EngineChange.ovr {b c : Block} (h : EngineChange b c) : c.ovr = b.ovr := by
  cases h with
  | same e => simp [e]
  | finished _ _ e => simp [e]
  | compressed _ _ _ _ e => simp [e]
  | busError _ _ e => simp [e]

/-- Only reset and an accepted CMD write clear OVR (R156). -/
theorem StepOutcome.ovr {s t : State} (h : StepOutcome s t) (wasSet : s.blk.ovr = true) :
    t.blk.ovr = true ∨ s.turn = .reset ∨
      (s.turn = .host ∧ s.busy = false ∧ ∃ (w : Word) (ops : List HostOp), s.host = .write 64 0x08 w :: ops) := by
  cases h with
  | hostIdle _ _ e => exact .inl (by simp [e, wasSet])
  | host turn op ops next out =>
    obtain still | ⟨idle, w, rfl⟩ := out.ovr (by simp [wasSet])
    · exact .inl still
    · exact .inr (.inr ⟨turn, by simpa [State.busy_eq] using idle, w, ops, next⟩)
  | engine _ out => exact .inl (by simp [out.change.ovr, wasSet])
  | memoryIdle _ _ e => exact .inl (by simp [e, wasSet])
  | memory _ _ _ _ _ e => exact .inl (by simp [e, wasSet])
  | reset turn _ => exact .inr (.inl turn)

end Sys2Proof.Machine

namespace Sys2Proof.Proofs

open Sys2Proof.Machine

/-- Settles O12: the BUSY test comes before the word is looked at; only an accepted CMD write or reset
clears OVR. -/
theorem busyCommandOnlySetsOvr : Obligations.BusyCommandOnlySetsOvr := by
  refine ⟨fun s w busy => cmdWrite_of_busy w s (s.busy_iff.2 busy), fun s i busy => exec_of_busy i (s.busy_iff.2 busy),
    fun s t hstep wasSet cleared => ?_⟩
  exact ((step_next s t hstep).ovr wasSet).resolve_left (by simp [cleared])

/-- Settles O9: CLRSTAT is acceptance and nothing more, and the illegal word 0 leaves the block idle for it. -/
theorem clrstatClearsStatus : Obligations.ClrstatClearsStatus := by
  have status {s : State} (idle : s.blk.opk = .idle) : (s.accept 0x03).blk.statusWord = 0x00030000 :=
    BitVec.eq_of_toNat_eq (Block.statusWord_accept_toNat idle 0x03)
  refine ⟨rfl, fun s idle => exec_clrstat_of_idle (s.blk.busy_eq_false.2 idle), fun s t idle h => ?_,
    fun s busy => exec_of_busy .clrstat (s.busy_iff.2 busy), fun s idle => ?_⟩
  · rw [exec_clrstat_of_idle (s.blk.busy_eq_false.2 idle)] at h
    cases h
    exact status idle
  · exact ⟨_, _, cmdWrite_of_illegal (s.blk.busy_eq_false.2 idle) (by decide) (by decide) (by decide),
      BitVec.eq_of_toNat_eq (s.blk.statusWord_illegalCmd_toNat 0x00), cmdWrite_three_of_idle rfl, status rfl⟩

/-- Settles O11: the word is none of the three, so acceptance is followed by the error of an idle block. -/
theorem illegalCommandRaises : Obligations.IllegalCommandRaises := by
  refine ⟨fun s w idle h1 h2 h3 => ?_, fun s idle => ?_⟩
  · rw [cmdWrite_of_illegal (s.blk.busy_eq_false.2 idle) h1 h2 h3, State.raise_illegalCmd_of_idle (s := s.accept _) idle]
    rfl
  · have notBusy : s.busy = false := s.blk.busy_eq_false.2 idle
    have status (op : BitVec 8) := s.blk.statusWord_illegalCmd_toNat op
    exact ⟨_, _, _,
      cmdWrite_of_illegal notBusy (by decide) (by decide) (by decide), BitVec.eq_of_toNat_eq (status 0x00),
      cmdWrite_of_illegal notBusy (by decide) (by decide) (by decide), BitVec.eq_of_toNat_eq (status 0x01),
      cmdWrite_of_illegal notBusy (by decide) (by decide) (by decide), BitVec.eq_of_toNat_eq (status 0x07)⟩

/-- Settles O13: the case of the exact word on the accepted state, which is still idle when the word is illegal. -/
theorem acceptanceByExactWord : Obligations.AcceptanceByExactWord := by
  refine ⟨fun s a w idle ha => ?_, fun s t w _ h => (cmdWrite_next w s t h).registers⟩
  obtain rfl : a = s.accept (w.extractLsb' 0 8) := ha
  rw [cmdWrite_of_idle w s (s.blk.busy_eq_false.2 idle), State.raise_illegalCmd_of_idle (s := s.accept _) idle]

end Sys2Proof.Proofs
end

section
/-! The register port: reads and writes of an admitted access, the refusal of every other, and STATUS while BUSY = 1
(43_control.md R151, R152, R158; 10_state.md R33, R34). -/

namespace Sys2Proof.Machine

theorem admitted_eq_false_iff (width off : Nat) :
    admitted width off = false ↔ width ≠ 64 ∨ off % 8 ≠ 0 ∨ 0x80 ≤ off := by
  rw [← Bool.not_eq_true, admitted_iff, not_and_or, not_and_or, Nat.not_lt]

theorem hostOp_read_of_admitted {width off : Nat} (ok : admitted width off = true) (s : State) :
    hostOp (.read width off) s = .next (s.pushRead (s.blk.regValue (Reg.atOffset off))) := if_pos ok

theorem hostOp_read_of_not_admitted {width off : Nat} (bad : admitted width off = false) (s : State) :
    hostOp (.read width off) s = .refused .notAdmitted := if_neg (by simp [bad])

theorem hostOp_write_of_not_admitted {width off : Nat} (bad : admitted width off = false) (w : Word) (s : State) :
    hostOp (.write width off w) s = .refused .notAdmitted := if_neg (by simp [bad])

/-- A write to any register but CMD writes that register (R152). -/
theorem hostOp_write_of_admitted {width off : Nat} (ok : admitted width off = true) (notCmd : Reg.atOffset off ≠ .cmd)
    (w : Word) (s : State) :
    hostOp (.write width off w) s = .next (s.setBlk (s.blk.writeReg w (Reg.atOffset off))) := by
  rw [hostOp, if_pos ok, regWrite]
  split
  · exact absurd ‹_› notCmd
  · rfl

theorem Reg.admitted_offset (r : Reg) : admitted 64 r.offset = true := by
  cases r <;> rfl

theorem hostOp_read_offset (r : Reg) (s : State) :
    hostOp (.read 64 r.offset) s = .next (s.pushRead (s.blk.regValue r)) := by
  rw [hostOp_read_of_admitted r.admitted_offset, r.atOffset_offset]

theorem hostOp_write_offset {r : Reg} (notCmd : r ≠ .cmd) (w : Word) (s : State) :
    hostOp (.write 64 r.offset w) s = .next (s.setBlk (s.blk.writeReg w r)) := by
  rw [hostOp_write_of_admitted r.admitted_offset (by rwa [r.atOffset_offset]), r.atOffset_offset]

theorem Reg.atOffset_of_ge {off : Nat} (h : 0x50 ≤ off) : Reg.atOffset off = .reserved := by
  simp (disch := omega) only [Reg.atOffset, if_neg]

/-- CTRL as a number: ERR_IE above DONE_IE (R34). -/
theorem Block.ctrlWord_eq (b : Block) : b.ctrlWord = BitVec.ofNat 64 (2 * b.errIe.toNat + b.doneIe.toNat) := by
  unfold Block.ctrlWord
  cases b.errIe <;> cases b.doneIe <;> rfl

/-- STATUS.DONE is bit 1 (R33). -/
theorem Block.statusWord_getLsbD_one (b : Block) : b.statusWord.getLsbD 1 = b.done := by
  simp only [Block.statusWord, BitVec.getLsbD_setWidth, BitVec.getLsbD_append]
  simp

/-- STATUS.ERR is bit 2 (R33). -/
theorem Block.statusWord_getLsbD_two (b : Block) : b.statusWord.getLsbD 2 = b.err := by
  simp only [Block.statusWord, BitVec.getLsbD_setWidth, BitVec.getLsbD_append]
  simp

/-- STATUS.ERRCODE is bits [11:8] (R33). -/
theorem Block.statusWord_extractLsb'_errcode (b : Block) : b.statusWord.extractLsb' 8 4 = b.errcode := by
  have layout := Proofs.statusWordLayout b
  have := Bool.toNat_lt b.ovr
  have := Bool.toNat_lt b.err
  have := Bool.toNat_lt b.done
  have := b.errcode.isLt
  refine BitVec.eq_of_toNat_eq ?_
  rw [BitVec.extractLsb'_toNat, Nat.shiftRight_eq_div_pow]
  split_ifs at layout <;> omega

end Sys2Proof.Machine

namespace Sys2Proof.Proofs

open Sys2Proof.Machine Sys2Proof.Safety

/-- Settles O31: one read per register of the window, and the admitted offsets above FAULT_ADDR name no register. -/
theorem regReadReturnsRegister : Obligations.RegReadReturnsRegister := by
  intro s
  have ctrl := hostOp_read_offset .ctrl s
  rw [Block.regValue, Block.ctrlWord_eq] at ctrl
  refine ⟨hostOp_read_offset .id s, hostOp_read_offset .cmd s, hostOp_read_offset .status s, ctrl,
    hostOp_read_offset .seed s, hostOp_read_offset .addr s, hostOp_read_offset .len s, hostOp_read_offset .result64 s,
    hostOp_read_offset .result32 s, hostOp_read_offset .faultAddr s, fun off ge lt whole => ?_,
    fun width off bad => hostOp_read_of_not_admitted ((admitted_eq_false_iff width off).2 bad) s⟩
  rw [hostOp_read_of_admitted ((admitted_iff 64 off).2 ⟨rfl, whole, lt⟩), Reg.atOffset_of_ge ge]
  rfl

/-- Settles O32: the four registers with storage take the value, CMD runs it, and the rest leave the block as it is. -/
theorem regWriteEffects : Obligations.RegWriteEffects := by
  intro s w
  have write {r : Reg} (notCmd : r ≠ .cmd) := hostOp_write_offset notCmd w s
  refine ⟨hostOp_write_cmd w s, write (r := .ctrl) nofun, write (r := .seed) nofun, write (r := .addr) nofun,
    write (r := .len) nofun, ?_,
    fun width off bad => hostOp_write_of_not_admitted ((admitted_eq_false_iff width off).2 bad) w s⟩
  rintro off (rfl | rfl | rfl | rfl | rfl | ⟨ge, lt, whole⟩)
  · exact write (r := .id) nofun
  · exact write (r := .status) nofun
  · exact write (r := .result64) nofun
  · exact write (r := .result32) nofun
  · exact write (r := .faultAddr) nofun
  · have reserved := Reg.atOffset_of_ge ge
    rw [hostOp_write_of_admitted ((admitted_iff 64 off).2 ⟨rfl, whole, lt⟩) (by simp [reserved]), reserved]
    rfl

/-- Settles O36: the value read is STATUS, and while BUSY = 1 the invariant has DONE and ERR clear, so ERRCODE too. -/
theorem busyStatusRead : Obligations.BusyStatusRead := by
  intro s t inv busy h
  obtain ⟨done, err⟩ := inv.busyClear busy
  rw [show (0x10 : Nat) = Reg.status.offset from rfl, hostOp_read_offset] at h
  cases h
  exact ⟨s.blk.statusWord, rfl, s.blk.statusWord_getLsbD_zero.trans busy, s.blk.statusWord_getLsbD_one.trans done,
    s.blk.statusWord_getLsbD_two.trans err, s.blk.statusWord_extractLsb'_errcode.trans (inv.noErrNoCode err)⟩

end Sys2Proof.Proofs
end

section
/-! The status invariant across every step, and the interrupt line (10_state.md R33, R39; 60_exceptions.md R170, R171, R175;
43_control.md R153, R154, R156). -/

namespace Sys2Proof.Machine

theorem ErrCode.bits_legal (c : ErrCode) : c.bits = 1 ∨ c.bits = 2 ∨ c.bits = 3 := by
  cases c <;> decide

/-- A 32-bit value has no bit in the upper half of a 64-bit register (R39). -/
theorem setWidth_ushiftRight_eq_zero (x : BitVec 32) : x.setWidth 64 >>> 32 = 0 := by
  rw [← BitVec.toNat_inj, BitVec.toNat_ushiftRight, Nat.shiftRight_eq_div_pow, BitVec.toNat_setWidth_of_le (by decide)]
  exact Nat.div_eq_of_lt x.isLt

end Sys2Proof.Machine

namespace Sys2Proof.Safety

open Sys2Proof.Machine

theorem statusInv_reset : StatusInv Block.reset := by
  constructor <;> decide

/-- LASTOP names the operation in progress (R153). -/
theorem StatusInv.lastop_of_busy {b : Block} (h : StatusInv b) (busy : b.busy = true) : b.lastop = 1 ∨ b.lastop = 2 := by
  cases kind : b.opk with
  | idle => simp [Block.busy, kind] at busy
  | h64 => exact .inl (h.h64Last kind)
  | h32 => exact .inr (h.h32Last kind)

/-- A register write, CMD's command apart, reaches no element of the invariant (R152). -/
theorem StatusInv.writeReg {b : Block} (h : StatusInv b) (w : Word) (r : Reg) : StatusInv (b.writeReg w r) := by
  cases r <;> exact { h with }

/-- Absorbing a block changes no status element (R121). -/
theorem StatusInv.compress {b : Block} (h : StatusInv b) (n : Nat) (v : Word) : StatusInv (b.compress n v) :=
  { h with }

/-- OVR is set while the operation that BUSY shows is in progress (R156). -/
theorem StatusInv.overrun {b : Block} (h : StatusInv b) (busy : b.busy = true) : StatusInv b.overrun :=
  { h with ovrAfterStart := fun _ => ⟨h.lastop_of_busy busy, .inl busy⟩ }

/-- Acceptance by an idle block leaves no flag, no code and no operation to constrain LASTOP (R153). -/
theorem StatusInv.accept {b : Block} (h : StatusInv b) (idle : b.busy = false) (op : BitVec 8) :
    StatusInv (b.accept op) := by
  have opk : b.opk = .idle := b.busy_eq_false.1 idle
  constructor <;> simp [Block.busy, opk, h.result32High]

/-- An error ends with ERR and a legal code where DONE is clear, and where only a bus error meets an overrun (R170, R171). -/
theorem StatusInv.raise {b : Block} (h : StatusInv b) {c : ErrCode} (notDone : b.done = false)
    (ovr : b.ovr = true → c = .busError) : StatusInv (b.raise c) where
  noErrNoCode := nofun
  errCode _ := c.bits_legal
  notDoneAndErr := by simp [notDone]
  busyClear := nofun
  ovrAfterStart set := ⟨(h.ovrAfterStart set).1, .inr (.inr (congrArg ErrCode.bits (ovr set)))⟩
  doneHash := h.doneHash
  h64Last := nofun
  h32Last := nofun
  result32High := h.result32High

/-- The start of an operation on a block whose acceptance has cleared the flags and recorded the command (R114, R143). -/
theorem StatusInv.start {b : Block} (h : StatusInv b) {i : Instr} (hi : i = .hash64 ∨ i = .hash32) (last : b.lastop = i.op)
    (notDone : b.done = false) (notErr : b.err = false) (notOvr : b.ovr = false) : StatusInv (b.start (hashKind i)) where
  noErrNoCode := h.noErrNoCode
  errCode := h.errCode
  notDoneAndErr := h.notDoneAndErr
  busyClear _ := ⟨notDone, notErr⟩
  ovrAfterStart := by simp [notOvr]
  doneHash := h.doneHash
  h64Last kind := by
    rcases hi with rfl | rfl
    · exact last
    · simp [hashKind] at kind
  h32Last kind := by
    rcases hi with rfl | rfl
    · simp [hashKind] at kind
    · exact last
  result32High := h.result32High

/-- Completion sets DONE where ERR is clear, by the operation that LASTOP names (R123). -/
theorem StatusInv.finish {b : Block} (h : StatusInv b) (busy : b.busy = true) : StatusInv b.finish where
  noErrNoCode := h.noErrNoCode
  errCode := h.errCode
  notDoneAndErr := by simp [(h.busyClear busy).2]
  busyClear := nofun
  ovrAfterStart _ := ⟨h.lastop_of_busy busy, .inr (.inl rfl)⟩
  doneHash _ := h.lastop_of_busy busy
  h64Last := nofun
  h32Last := nofun
  result32High := by
    rw [Block.finish_result32]
    split
    · exact setWidth_ushiftRight_eq_zero _
    · exact h.result32High

/-- A command sets OVR, or is accepted and then leaves it at that, raises ADDR_RANGE or starts (R115, R153, R156). -/
theorem StatusInv.of_execOutcome {i : Instr} {s t : State} (h : StatusInv s.blk) (out : ExecOutcome i s t) :
    StatusInv t.blk := by
  cases out with
  | overrun busy e => exact e ▸ h.overrun busy
  | clrstat idle _ e => exact e ▸ h.accept idle i.op
  | addrRange idle _ _ e => exact e ▸ (h.accept idle i.op).raise rfl nofun
  | started idle hi _ _ e => exact e ▸ (h.accept idle i.op).start hi rfl rfl rfl rfl

theorem StatusInv.of_cmdOutcome {w : Word} {s t : State} (h : StatusInv s.blk) (out : CmdOutcome w s t) :
    StatusInv t.blk := by
  cases out with
  | command _ _ out => exact h.of_execOutcome out
  | overrun busy e => exact e ▸ h.overrun busy
  | illegal idle _ _ e => exact e ▸ (h.accept idle _).raise rfl nofun

/-- Of the host's operations only a register write reaches the block. -/
theorem StatusInv.of_hostOutcome {op : HostOp} {s t : State} (h : StatusInv s.blk) (out : HostOutcome s t op) :
    StatusInv t.blk := by
  cases out with
  | read _ _ _ e => exact e ▸ h
  | cmd _ out => exact h.of_cmdOutcome out
  | write _ off w _ _ e => exact e ▸ h.writeReg w (Reg.atOffset off)
  | store _ _ _ _ e => exact e ▸ h
  | fence _ e => exact e ▸ h
  | wait e => rwa [e, waitStep_blk]

/-- The engine ends an operation by completion or by a bus error, and else leaves the status alone (R120). -/
theorem StatusInv.of_engineChange {b c : Block} (h : StatusInv b) (change : EngineChange b c) : StatusInv c := by
  cases change with
  | same e => exact e ▸ h
  | finished busy _ e => exact e ▸ h.finish busy
  | compressed _ _ n v e => exact e ▸ h.compress n v
  | busError busy _ e => exact e ▸ h.raise (h.busyClear busy).1 fun _ => rfl

end Sys2Proof.Safety

namespace Sys2Proof.Machine

theorem Block.irq_iff (b : Block) :
    b.irq = true ↔ (b.done = true ∧ b.doneIe = true) ∨ ((b.err = true ∨ b.ovr = true) ∧ b.errIe = true) := by
  simp only [Block.irq, Bool.or_eq_true, Bool.and_eq_true]

/-- Acceptance clears every flag that drives the interrupt line (R153, R175). -/
@[simp] theorem Block.irq_accept (b : Block) (op : BitVec 8) : (b.accept op).irq = false := by
  simp [Block.irq]

/-- The start of an operation leaves the interrupt line as it is (R114). -/
@[simp] theorem Block.irq_start (b : Block) (k : OpKind) : (b.start k).irq = b.irq := rfl

end Sys2Proof.Machine

namespace Sys2Proof.Proofs

open Sys2Proof.Machine Sys2Proof.Safety

/-- Settles O53: a CMD write and the engine are the only ones to change the status between resets, and each of their outcomes
keeps the invariant. -/
theorem stepKeepsStatusInvariant : Obligations.StepKeepsStatusInvariant := by
  intro s t h hstep
  have taken : StatusInv s.takeTurn.blk := s.takeTurn_blk ▸ h
  cases step_next s t hstep with
  | hostIdle _ _ e => exact e ▸ taken
  | host _ op ops _ out => exact StatusInv.of_hostOutcome (s := s.takeTurn.setHost ops) taken out
  | engine _ out => exact taken.of_engineChange out.change
  | memoryIdle _ _ e => exact e ▸ taken
  | memory _ _ _ _ _ e => exact e ▸ taken
  | reset _ e => exact e ▸ statusInv_reset

/-- Settles O15: acceptance clears the three flags, the start of an operation sets none of them, and ADDR_RANGE would set ERR. -/
theorem acceptanceDropsIrq : Obligations.AcceptanceDropsIrq := by
  intro i s t idle h notErr
  cases exec_next i s t h with
  | overrun busy _ => simp [idle] at busy
  | clrstat _ _ e => simp [e]
  | addrRange _ _ _ e => simp [e] at notErr
  | started _ _ _ _ e => simp [e]

/-- Settles O34: a write of 0 to CTRL clears both enables and reaches no flag. -/
theorem irqFollowsFlagsAndEnables : Obligations.IrqFollowsFlagsAndEnables :=
  ⟨Block.irq_iff, fun s => ⟨_, hostOp_write_offset (r := .ctrl) nofun 0 s, by simp [Block.writeReg, Block.irq_writeCtrl],
    rfl, rfl, rfl⟩⟩

end Sys2Proof.Proofs
end

section
/-! A hash whose buffer is not visible yet (70_reset_and_hazards.md R198). -/

namespace Sys2Proof.Machine

theorem exec_hash_of_invisible {i : Instr} (hi : i = .hash64 ∨ i = .hash32) (s : State) (idle : s.busy = false)
    (legal : rangeWraps s.blk.addr s.blk.len = false) (pending : s.storePending s.blk.addr s.blk.len = true) :
    exec i s = .refused .bufferNotVisible := by
  rw [exec_of_hash hi, State.command_of_idle _ _ _ idle]
  exact startHash_of_invisible (hashKind i) (s.accept i.op) legal pending

end Sys2Proof.Machine

namespace Sys2Proof.Proofs

open Sys2Proof.Machine

/-- Settles O16: the range passes R115, so the waiting store decides. -/
theorem invisibleBufferHasNoMeaning : Obligations.InvisibleBufferHasNoMeaning := by
  intro s c idle fits waiting low high
  have legal : rangeWraps s.blk.addr s.blk.len = false := (rangeWraps_eq_false _ _).2 (.inr fits)
  have pending : s.storePending s.blk.addr s.blk.len = true :=
    List.any_eq_true.2 ⟨c, waiting, (inRange_iff _ _ _).2 ⟨low, high⟩⟩
  have refuses {i : Instr} (hi : i = .hash64 ∨ i = .hash32) :=
    exec_hash_of_invisible hi s (s.blk.busy_eq_false.2 idle) legal pending
  exact ⟨refuses (.inl rfl), refuses (.inr rfl)⟩

end Sys2Proof.Proofs
end

section
/-! Fair runs (70_reset_and_hazards.md R200): over a memory that answers, each turn of the engine takes bytes off REM or ends
the operation, and a `wait` that the host comes back to ends once BUSY = 0 (30_encoding.md R92). -/

namespace Sys2Proof.Machine

/-- A memory that answers leaves the engine two ways: the operation ends, or bytes are taken off REM (R121–R123). -/
theorem EngineOutcome.rem_lt {s t : State} (h : EngineOutcome s t) (answers : s.plat.memAnswers = true)
    (before : s.busy = true) (after : t.busy = true) : t.blk.rem.toNat < s.blk.rem.toNat := by
  cases h with
  | idle idle _ => simp [idle] at before
  | finished _ _ e => simp [e, State.busy_eq] at after
  | stuck _ _ _ silent _ => simp [silent] at answers
  | compressed _ size _ _ _ e =>
    have taken := s.blk.compress_rem_toNat (le64 (s.bytesAt s.blk.ptr s.blk.blockSize))
    have within : s.blk.blockSize ≤ s.blk.rem.toNat := Nat.min_le_left _ _
    rw [e, State.setBlk_blk, taken]
    omega
  | busError _ _ _ _ _ e => simp [e, State.busy_eq] at after

/-- An engine's turn over a memory that answers takes bytes off REM, unless it ends the operation. -/
theorem step_rem_lt_of_engine {s t : State} (hstep : step s = .next t) (turn : s.turn = .engine)
    (answers : s.plat.memAnswers = true) (before : s.busy = true) (after : t.busy = true) :
    t.blk.rem.toNat < s.blk.rem.toNat := by
  have out : EngineOutcome s.takeTurn t := engineStep_next _ _ (by rwa [step_eq_turnStep, turn] at hstep)
  have taken : s.takeTurn.busy = true := by simpa [State.busy_eq] using before
  simpa using out.rem_lt (by simpa using answers) taken after

/-- While BUSY = 1 no step puts bytes back on REM. -/
theorem StepOutcome.rem_le {s t : State} (h : StepOutcome s t) (answers : s.plat.memAnswers = true)
    (before : s.busy = true) (after : t.busy = true) : t.blk.rem.toNat ≤ s.blk.rem.toNat := by
  have taken : s.takeTurn.busy = true := by simpa [State.busy_eq] using before
  cases h with
  | hostIdle _ _ e => simp [e]
  | host _ _ ops _ out =>
    obtain ⟨-, -, -, rem⟩ := out.operation_of_busy taken
    simp [rem]
  | engine _ out => simpa using (out.rem_lt (by simpa using answers) taken after).le
  | memoryIdle _ _ e => simp [e]
  | memory _ _ _ _ _ e => simp [e]
  | reset _ e => simp [e, State.busy_eq, Block.reset] at after

/-- A `wait` stays next through every step but the host's own with BUSY = 0 (R92). -/
theorem StepOutcome.wait_stays {s t : State} (h : StepOutcome s t) {rest : List HostOp} (waiting : s.host = .wait :: rest)
    (polls : s.turn = .host → s.busy = true) : t.host = .wait :: rest := by
  cases h with
  | hostIdle _ none _ => simp [none] at waiting
  | host turn op ops next out =>
    obtain ⟨rfl, rfl⟩ := List.cons_eq_cons.1 (next.symm.trans waiting)
    cases out with
    | wait e => rw [e, waitStep_of_busy _ (by simpa [State.busy_eq] using polls turn)]; rfl
  | engine _ out =>
    obtain ⟨b, rfl⟩ := out.only_blk
    simpa using waiting
  | memoryIdle _ _ e => simpa [e] using waiting
  | memory _ _ _ _ _ e => simpa [e] using waiting
  | reset _ e => simpa [e] using waiting

/-- The host's step at a `wait` with BUSY = 0 is the wait's last read (R92). -/
theorem step_wait_of_idle {s : State} {rest : List HostOp} (waiting : s.host = .wait :: rest) (turn : s.turn = .host)
    (idle : s.busy = false) : step s = .next ((s.takeTurn.setHost rest).pushRead s.blk.statusWord) := by
  rw [step_eq_turnStep, turn, turnStep, hostStep_of_cons _ .wait rest (by simpa using waiting), hostOp,
    waitStep_of_idle _ (by simpa [State.busy_eq] using idle)]
  simp

/-- While a `wait` is next, BUSY does not rise (R22, R195). -/
theorem step_idle_of_wait {s t : State} (hstep : step s = .next t) {rest : List HostOp} (waiting : s.host = .wait :: rest)
    (idle : s.busy = false) : t.busy = false := by
  by_contra rises
  obtain ⟨-, _, _, write, -⟩ := (Proofs.busyChangesOnlyByRule s t hstep).2 idle (by simpa using rises)
  simp [waiting] at write

end Sys2Proof.Machine

namespace Sys2Proof.Safety

open Sys2Proof.Machine

theorem exists_first_from {P : Nat → Prop} {n : Nat} (h : ∃ m ≥ n, P m) :
    ∃ m ≥ n, P m ∧ ∀ j, n ≤ j → j < m → ¬P j := by
  classical
  obtain ⟨le, holds⟩ := Nat.find_spec h
  exact ⟨Nat.find h, le, holds, fun j hj before now => Nat.find_min h before ⟨hj, now⟩⟩

namespace FairRun

variable {r : Nat → State} (fair : FairRun r)
include fair

theorem outcome (n : Nat) : StepOutcome (r n) (r (n + 1)) := step_next _ _ (fair.steps n)

/-- Log entry 2: the platform is the same throughout. -/
theorem plat_eq {n m : Nat} (hm : n ≤ m) : (r m).plat = (r n).plat := by
  induction m, hm using Nat.le_induction with
  | base => rfl
  | succ m _ ih => rw [(fair.outcome m).plat, ih]

/-- REM cannot fall for ever, so BUSY does not stay 1 for ever (R125, R200). -/
theorem eventually_idle {n : Nat} (answers : (r n).plat.memAnswers = true) : ∃ m ≥ n, (r m).busy = false := by
  by_contra never
  have busy (i : Nat) : (r (n + i)).busy = true := by
    by_contra idle
    exact never ⟨n + i, n.le_add_right i, by simpa using idle⟩
  have answers (m : Nat) (hm : n ≤ m) : (r m).plat.memAnswers = true := by rwa [fair.plat_eq hm]
  have falls : Antitone fun i => (r (n + i)).blk.rem.toNat :=
    antitone_nat_of_succ_le fun i => (fair.outcome (n + i)).rem_le (answers _ (by omega)) (busy i) (busy (i + 1))
  obtain ⟨k, lowest⟩ : ∃ k, ∀ i, (r (n + k)).blk.rem.toNat ≤ (r (n + i)).blk.rem.toNat :=
    ⟨_, fun i => Function.argmin_le (fun i => (r (n + i)).blk.rem.toNat) i⟩
  obtain ⟨m, hm, idle | turn⟩ := fair.engine (n + k) (busy k) (answers _ (by omega))
  · exact never ⟨m, by omega, idle⟩
  · obtain ⟨i, rfl⟩ : ∃ i, m = n + i := Nat.exists_eq_add_of_le (by omega)
    have lower := step_rem_lt_of_engine (fair.steps (n + i)) turn (answers _ (by omega)) (busy i) (busy (i + 1))
    exact (lower.trans_le (falls (by omega : k ≤ i))).not_ge (lowest (i + 1))

/-- A `wait` is next for as long as the host has taken no step with BUSY = 0. -/
theorem wait_stays {n m : Nat} {rest : List HostOp} (waiting : (r n).host = .wait :: rest) (hm : n ≤ m)
    (polls : ∀ j, n ≤ j → j < m → ¬((r j).turn = .host ∧ (r j).busy = false)) : (r m).host = .wait :: rest := by
  induction m, hm using Nat.le_induction with
  | base => exact waiting
  | succ m hm ih =>
    refine (fair.outcome m).wait_stays (ih fun j hj before => polls j hj (by omega)) fun turn => ?_
    simpa [turn] using polls m hm m.lt_succ_self

/-- A host that goes on takes a step with BUSY = 0 after every `wait` (R92, R200): else the `wait` stays next, BUSY falls and
stays 0, and the host comes back to it. -/
theorem eventually_host_idle (goesOn : HostGoesOn r) {n : Nat} {rest : List HostOp} (answers : (r n).plat.memAnswers = true)
    (waiting : (r n).host = .wait :: rest) : ∃ m ≥ n, (r m).turn = .host ∧ (r m).busy = false := by
  by_contra never
  have stays (m : Nat) (hm : n ≤ m) : (r m).host = .wait :: rest :=
    fair.wait_stays waiting hm fun j hj _ last => never ⟨j, hj, last⟩
  obtain ⟨k, hk, idle⟩ := fair.eventually_idle answers
  have idle_after (m : Nat) (hm : k ≤ m) : (r m).busy = false := by
    induction m, hm using Nat.le_induction with
    | base => exact idle
    | succ m hm ih => exact step_idle_of_wait (fair.steps m) (stays m (hk.trans hm)) ih
  obtain ⟨m, hm, turn⟩ := goesOn k (by simp [stays k hk])
  exact never ⟨m, hk.trans hm, turn, idle_after m hm⟩

end FairRun
end Sys2Proof.Safety

namespace Sys2Proof.Proofs

open Sys2Proof.Machine Sys2Proof.Safety

/-- Settles O58: the step before the first time with BUSY = 0 is one of those that lower BUSY. -/
theorem fairOperationsEnd : Obligations.FairOperationsEnd := by
  intro r n fair busy answers
  obtain ⟨m, hm, idle, earlier⟩ := exists_first_from (fair.eventually_idle answers)
  obtain rfl | after := hm.eq_or_lt
  · simp [busy] at idle
  obtain ⟨k, rfl⟩ : ∃ k, m = k + 1 := Nat.exists_eq_add_one.2 (by omega)
  have stays (j : Nat) (hj : n ≤ j) (hjk : j ≤ k) : (r j).busy = true := by simpa using earlier j hj (by omega)
  refine ⟨k, by omega, stays, idle, ?_⟩
  obtain reset | ⟨turn, ⟨-, done⟩ | ⟨-, err, code⟩⟩ :=
    (busyChangesOnlyByRule _ _ (fair.steps k)).1 (stays k (by omega) le_rfl) idle
  · exact .inl reset
  · exact .inr ⟨turn, .inl done⟩
  · exact .inr ⟨turn, .inr ⟨err, code⟩⟩

/-- Settles O59: the `wait` stays next up to the host's first step with BUSY = 0, which is its last read. -/
theorem fairWaitsEnd : Obligations.FairWaitsEnd := by
  intro r n rest fair goesOn answers waiting
  obtain ⟨m, hm, ⟨turn, idle⟩, earlier⟩ := exists_first_from (fair.eventually_host_idle goesOn answers waiting)
  have stays (j : Nat) (hj : n ≤ j) (hjm : j ≤ m) : (r j).host = .wait :: rest :=
    fair.wait_stays waiting hj fun i hi before => earlier i hi (by omega)
  have next : r (m + 1) = ((r m).takeTurn.setHost rest).pushRead (r m).blk.statusWord :=
    Host.Outcome.next.inj ((fair.steps m).symm.trans (step_wait_of_idle (stays m hm le_rfl) turn idle))
  refine ⟨m, hm, stays, turn, idle, by simp [next], by simp [next], ?_⟩
  rw [Block.statusWord_getLsbD_zero]
  exact idle

end Sys2Proof.Proofs
end

section
/-! Reset and what follows it (70_reset_and_hazards.md R190 to R193), and operations over equal bytes (10_state.md R43,
20_memory.md R74). -/

namespace Sys2Proof.Machine

theorem step_of_reset {s : State} (turn : s.turn = .reset) : step s = .next s.takeTurn.doReset := by
  rw [step_eq_turnStep, turn, turnStep]

/-- An empty buffer passes the range check and is visible, whatever waits (R115, R198). -/
theorem exec_hash_of_empty {i : Instr} (hi : i = .hash64 ∨ i = .hash32) (s : State) (idle : s.busy = false)
    (len : s.blk.len = 0) : exec i s = .next (s.started i) :=
  exec_hash_of_legal hi s idle ((rangeWraps_eq_false _ _).2 (.inl len)) (len ▸ s.storePending_eq_false_of_zero _)

/-- ADDR, LEN and SEED are 0 after reset, and mix(0) = 0 leaves both results at 0 (R193). -/
theorem exec_hash_reset {i : Instr} (hi : i = .hash64 ∨ i = .hash32) :
    ∃ t u : State, exec i State.reset = .next t ∧ t.busy = true ∧ t.blk.memRequest = none ∧ engineStep t = .next u ∧
      u.blk.done = true ∧ u.blk.result64 = 0 ∧ u.blk.result32 = 0 ∧ u.busy = false := by
  have busy : (State.reset.started i).busy = true := State.started_busy hi _
  have acc : initAcc 0 0 = 0 := by simp [initAcc]
  have result64 : mix (initAcc 0 0) = 0 := acc ▸ mix_zero
  have result32 : (fold32 (mix (initAcc 0 0))).setWidth 64 = 0 := by rw [result64]; decide
  exact ⟨State.reset.started i, _, exec_hash_of_empty hi _ rfl rfl, busy, Block.memRequest_of_rem_eq_zero _ rfl,
    engineStep_of_rem_eq_zero _ busy rfl, rfl, result64, (if_congr .rfl result32 rfl).trans (ite_self 0), rfl⟩

end Sys2Proof.Machine

namespace Sys2Proof.Safety

open Sys2Proof.Machine

/-- Buffers of one length that hold the same bytes are equal, wherever they stand (R74). -/
theorem buffer_eq_of_bytes {s t : State} (len : s.latch.len = t.latch.len)
    (bytes : ∀ i < s.latch.len.toNat,
      s.mem.read (byteAddress s.latch.addr i) = t.mem.read (byteAddress t.latch.addr i)) : buffer s = buffer t := by
  rw [buffer, buffer, ← len]
  exact State.bytesAt_congr s t _ _ _ bytes

end Sys2Proof.Safety

namespace Sys2Proof.Proofs

open Sys2Proof.Machine Sys2Proof.Safety

/-- Settles O50: each result is the hash of the state's own buffer and seed, and these are equal. -/
theorem sameBytesSameHash : Obligations.SameBytesSameHash := by
  intro s t k busy opkS opkT invS invT seed len bytes remS remT
  have same : buffer s = buffer t := buffer_eq_of_bytes len bytes
  obtain ⟨s', stepS, -, -, s64, s32, -⟩ := completionWritesHashOfBuffer s invS (s.busy_iff.2 (opkS ▸ busy)) remS
  obtain ⟨t', stepT, -, -, t64, t32, -⟩ := completionWritesHashOfBuffer t invT (t.busy_iff.2 (opkT ▸ busy)) remT
  refine ⟨s', t', stepS, stepT, ?_, fun h32 => ?_⟩
  · rw [s64, t64, same, seed]
  · rw [s32 (opkS.trans h32), t32 (opkT.trans h32), same, seed]

/-- Settles O44: taking up the turn and the reset reach nothing outside the block but the turns and the latch, and the block
at its reset value is idle. -/
theorem resetRestoresEveryElement : Obligations.ResetRestoresEveryElement :=
  ⟨fun s turn => ⟨_, step_of_reset turn, rfl, s.takeTurn_mem, s.takeTurn_plat, s.takeTurn_stores, s.takeTurn_host,
    s.takeTurn_reads, engineStep_of_idle _ rfl⟩, rfl, by decide, rfl⟩

/-- Settles O45: the buffer after reset is empty, so the engine's first step is its last. -/
theorem hashStraightAfterReset : Obligations.HashStraightAfterReset := by
  obtain ⟨t, u, start, busy, request, last, done, result64, -, idle⟩ := exec_hash_reset (i := .hash64) (.inl rfl)
  exact ⟨⟨t, u, start, busy, request, last, done, result64, idle⟩, exec_hash_reset (.inr rfl)⟩

/-- Settles O52: after reset the memory lists nothing, no store waits and no operation is in progress. -/
theorem invariantsHoldAtReset : Obligations.InvariantsHoldAtReset :=
  ⟨statusInv_reset, ⟨rfl, nofun⟩, .of_idle rfl⟩

end Sys2Proof.Proofs
end
